-- ==== Sys2Proof/Word.lean ====
section
/-! DEFINITION. The words of the Distrel 4160: bytes, keys, sectors, and fixed tables built from a function.
A sector is 32 units of 16 bytes, unit 0 first (R34). -/

namespace Sys2Proof

abbrev Byte := BitVec 8
/-- A 256-bit range key, retention key or wrapping secret (R23). -/
abbrev Key := BitVec 256
/-- A 32-byte credential (R82). -/
abbrev Credential := BitVec 256
/-- What a credential is reduced to (R82). -/
abbrev Verifier := BitVec 256
/-- A sector of 512 bytes as its 32 units of 16 bytes (R34). Byte 0 of a unit is its most significant byte. -/
abbrev Sector := Vector (BitVec 128) 32

/-- The fixed table whose entry `i` is `f i`. -/
def tab {n : Nat} {α : Type} (f : Fin n → α) : Vector α n := ⟨(List.ofFn f).toArray, by simp⟩

@[simp] theorem getElem_tab {n : Nat} {α : Type} (f : Fin n → α) (i : Nat) (h : i < n) :
    (tab f)[i] = f ⟨i, h⟩ := by simp [tab]

/-- The table with entry `i` changed by `f`. -/
def upd {n : Nat} {α : Type} (v : Vector α n) (i : Fin n) (f : α → α) : Vector α n := v.set i (f v[i])

theorem getElem_upd {n : Nat} {α : Type} (v : Vector α n) (i : Fin n) (f : α → α) (j : Nat) (h : j < n) :
    (upd v i f)[j] = if i.val = j then f v[i] else v[j] := by
  simp [upd, Vector.getElem_set]

@[simp] theorem getElem_upd_same {n : Nat} {α : Type} (v : Vector α n) (i : Fin n) (f : α → α) :
    (upd v i f)[i] = f v[i] := by simp [upd]

theorem getElem_upd_of_ne {n : Nat} {α : Type} (v : Vector α n) (i j : Fin n) (f : α → α) (h : i ≠ j) :
    (upd v i f)[j] = v[j] := by
  have : i.val ≠ j.val := fun e => h (Fin.ext e)
  simp [upd, this]

/-- The sector of 512 zero bytes (R37). -/
def zeroSector : Sector := tab fun _ => 0

end Sys2Proof
end

