-- ==== Sys2Proof/Records.lean ====
section
/-! DEFINITION. The persistent records of the Configuration Store (R185) and the named values their fields hold. -/

namespace Sys2Proof.Machine

/-- An LBA extent [start, start + len) (1.5). -/
structure Extent where
  start : Nat
  len : Nat
  deriving DecidableEq, Repr

/-- The five policy flags of a range (R7): `hold` is the sleep policy HOLD, `relock` is relock-on-link-reset. -/
structure Policy where
  readEn : Bool
  writeEn : Bool
  conceal : Bool
  hold : Bool
  relock : Bool
  deriving DecidableEq, Repr

/-- The persisted fields of a range record (table of 1.2). -/
structure RangeCfg where
  extent : Option Extent
  policy : Policy
  erased : Bool
  deriving DecidableEq, Repr

/-- The states of an authority (R83). -/
inductive AuthState where
  | unset | enabled | disabled | blocked
  deriving DecidableEq, Repr

/-- An authority record (R82). -/
structure Authority where
  state : AuthState
  verifier : Option Verifier
  limit : Nat
  remaining : Nat
  grants : BitVec 17
  deriving DecidableEq, Repr

/-- The owner of an envelope: an authority or the part itself (R84). -/
inductive Owner where
  | authority (a : Fin 8)
  | device
  deriving DecidableEq, Repr

/-- What an envelope was wrapped under (R85): a credential, the part's internal root, or a retention key (R153). -/
inductive Secret where
  | credential (c : Credential)
  | root
  | retention (k : Key)
  deriving DecidableEq, Repr

/-- A wrapped key. It opens exactly with the secret it was wrapped under (R85; log 8). -/
structure Wrapped where
  secret : Secret
  key : Key
  deriving DecidableEq, Repr

/-- An envelope: owner, range 0..16 or 17 for the tail, wrapped key (R84). -/
structure Envelope where
  owner : Owner
  range : Fin 18
  wrapped : Wrapped
  deriving DecidableEq, Repr

/-- Bay conversion modes (R107). -/
inductive BayMode where
  | binding | selfTest
  deriving DecidableEq, Repr

/-- Bay conversion settings, finest first (R107). -/
inductive Setting where
  | fine | standard | quick | coarse
  deriving DecidableEq, Repr

inductive BindPolicy where
  | off | warn | strict
  deriving DecidableEq, Repr

/-- The bay record (R114); the window is lo..hi per-mille. -/
structure BayRecord where
  window : Option (Nat × Nat)
  policy : BindPolicy
  routine : Setting
  faultMark : Bool
  deriving DecidableEq, Repr

/-- The six sources of the Response Controller (7.2). -/
inductive Source where
  | nonadminBlocked | adminBlocked | bayMismatch | bayOpen | deadman | storeFault
  deriving DecidableEq, Repr

/-- The five actions, least severe first (R122). -/
inductive Action where
  | note | lockAll | concealAll | cryptoErase | fullWipe
  deriving DecidableEq, Repr

/-- The done mark of a source (R125). -/
inductive DoneMark where
  | none | cryptoErase | fullWipe
  deriving DecidableEq, Repr

/-- Sweep methods (R134). -/
inductive Method where
  | eraseOnly | overwrite | release
  deriving DecidableEq, Repr

/-- The source record: pending set and done marks (R119). -/
structure SourceRec where
  pending : BitVec 6
  marks : Vector DoneMark 6
  deriving DecidableEq, Repr

/-- The response configuration record (R119, R122). -/
structure ResponseCfg where
  map : Vector (Fin 4) 6
  actions : Vector Action 4
  enables : BitVec 4
  armed : Bool
  method : Method
  deriving DecidableEq, Repr

inductive WipeState where
  | idle | erasing | sweeping | done
  deriving DecidableEq, Repr

inductive WipeOutcome where
  | complete | incomplete
  deriving DecidableEq, Repr

inductive WipeOrigin where
  | management | response
  deriving DecidableEq, Repr

/-- The wipe record (R134); `scope` and `eraseSet` hold bit i for range i and bit 17 for the tail. -/
structure WipeRec where
  state : WipeState
  scope : BitVec 18
  method : Method
  full : Bool
  cursor : Option Nat
  errors : Nat
  eraseSet : BitVec 18
  outcome : Option WipeOutcome
  origin : Option WipeOrigin
  deriving DecidableEq, Repr

/-- The dead-start record (R103). -/
structure DeadStart where
  count : Nat
  limit : Nat
  deriving DecidableEq, Repr

/-- The flow settings (R67, R79). -/
structure Flow where
  fwm : Nat
  ewm : Nat
  k : Nat
  deriving DecidableEq, Repr

/-- The boot window record (R11). -/
structure BootWindow where
  w : Nat
  enable : Bool
  deriving DecidableEq, Repr

/-- The names of the 99 records (R185). -/
inductive RecordId where
  | authority (i : Fin 8)
  | envelope (p : Fin 64)
  | range (r : Fin 17)
  | tail
  | bootWindow
  | bay
  | responseCfg
  | source
  | wipe
  | deadStart
  | flow
  | retention
  | noteMask
  deriving DecidableEq, Repr

/-- A record with the value it carries (R185). -/
inductive Record where
  | authority (i : Fin 8) (v : Authority)
  | envelope (p : Fin 64) (v : Option Envelope)
  | range (r : Fin 17) (v : RangeCfg)
  | tail (erased : Bool)
  | bootWindow (v : BootWindow)
  | bay (v : BayRecord)
  | responseCfg (v : ResponseCfg)
  | source (v : SourceRec)
  | wipe (v : WipeRec)
  | deadStart (v : DeadStart)
  | flow (v : Flow)
  | retention (limit : Nat)
  | noteMask (v : BitVec 13)
  deriving DecidableEq, Repr

/-- The name of a record's place in the store. -/
def Record.id : Record → RecordId
  | .authority i _ => .authority i
  | .envelope p _ => .envelope p
  | .range r _ => .range r
  | .tail _ => .tail
  | .bootWindow _ => .bootWindow
  | .bay _ => .bay
  | .responseCfg _ => .responseCfg
  | .source _ => .source
  | .wipe _ => .wipe
  | .deadStart _ => .deadStart
  | .flow _ => .flow
  | .retention _ => .retention
  | .noteMask _ => .noteMask

end Sys2Proof.Machine
end

