-- ==== Sys2Proof/Syntax.lean ====
section
/-! DEFINITION. The commands of the Distrel 4160: one constructor per row of spec/opcode_table.json.
The table gives no row any operand bits; an operand here is what the step needs from outside the block. The last operand
of a frame, `after`, is where its port's framer stands when the step is over: IDLE where an end mark ended the frame,
RECEIVING where the start mark of the next one did (R163; log 28). It is left out where it is IDLE. -/

namespace Sys2Proof

open Machine

/-- A port's receive framer (R163): between frames, or the bytes of a frame gathered since its start mark. -/
inductive Framer where
  | idle
  | receiving (bytes : Nat)
  deriving DecidableEq, Repr

/-- The two channel ports (1.1). -/
inductive Port where
  | front | media
  deriving DecidableEq, Repr

/-- The commands. Tags, counts and codes have the widths of their frame fields (R162, 10.6). -/
inductive Instr where
  /-- POWER_ON (R101): whether the retention domain kept its contents (R161), whether a write in progress
  landed (R188), and the records found to fail their check, as they stand in the store (R186). -/
  | powerOn (retentionKept landed : Bool) (corrupt : List Record)
  /-- FRAME_CHECK_FAIL (R163): the port and the bytes received. -/
  | frameCheckFail (port : Port) (bytes : List Byte) (after : Framer)
  | read (tag : Byte) (start : BitVec 48) (count : BitVec 16) (after : Framer := .idle)
  | write (tag : Byte) (start : BitVec 48) (count : BitVec 16) (after : Framer := .idle)
  | trim (tag : Byte) (start : BitVec 48) (count : BitVec 16) (after : Framer := .idle)
  | flush (tag : Byte) (after : Framer := .idle)
  | pass (tag : Byte) (start : BitVec 48) (count : BitVec 16) (params : BitVec 120) (after : Framer := .idle)
  | identify (tag : Byte) (after : Framer := .idle)
  | secSend (tag : Byte) (count : BitVec 16) (after : Framer := .idle)
  | secRecv (tag : Byte) (count : BitVec 16) (after : Framer := .idle)
  | frontData (tag : Byte) (bit : Bool) (body : Sector) (after : Framer := .idle)
  | frontAbort (tag : Byte) (after : Framer := .idle)
  | sleep (after : Framer := .idle)
  | wake (after : Framer := .idle)
  | linkReset (after : Framer := .idle)
  | mediaData (tag : Byte) (bit : Bool) (body : Sector) (after : Framer := .idle)
  | mediaStat (tag : Byte) (status : Byte) (code : BitVec 16) (after : Framer := .idle)
  | mediaGrant (tag : Byte) (count : BitVec 16) (after : Framer := .idle)
  | mediaAbort (tag : Byte) (after : Framer := .idle)
  | mediaTimeout (tag : Byte)
  | quiesceTimeout (tag : Byte)
  | dataTimeout (tag : Byte)
  | commandComplete (tag : Byte)
  | frontGrant
  | readGrant
  | sectorDelivery (tag : Byte)
  | stagedSectorSend (tag : Byte)
  | mediaArbiterIssue
  | chunkOffer
  | verifyStart
  | verifyEnd
  | replyReady
  /-- STORE_WRITE_DONE (R188): the record as the store reads it back. -/
  | storeWriteDone (readBack : Record)
  | sleepEntered
  | retentionExpiry
  | zeroingEnd
  | integratingEnd
  /-- DEINTEGRATING_END (R106): the count at which the comparator was found crossed; F or more if it was not. -/
  | deintegratingEnd (d : Nat)
  | queryStatus
  | readEvents
  | setNoteMask
  | unlock
  | lock
  | bootDone
  | setAuthority
  | setCredential
  | resetAuthority
  | setDeadstart
  | defineRanges
  | modifyPolicy
  | setBootWindow
  | bootImageWrite
  | measureBay
  | enrollBay
  | setBindPolicy
  | setResponse
  | ackSources
  | wipe
  | rekey
  | setFlow
  | setRetention
  | frameSend (port : Port)
  deriving DecidableEq, Repr

end Sys2Proof
end

