-- ==== Sys2Proof/Decode.lean ====
section
/-! DEFINITION. The command that a word of the opcode table's numbering spells. -/

namespace Sys2Proof

/-- The opcode table gives no row any bits (every row's field list is empty), so no word spells a command. What a byte
string on a port is stands in Machine/Frames.lean (R162 to R166). -/
def decodeTableWord (_nbits _w : Nat) : Option Instr := none

end Sys2Proof
end

