-- ==== Sys2Proof/Machine/Bytes.lean ====
section
/-! DEFINITION. Bytes of sectors and big-endian fields: multi-byte fields are sent most significant byte first (R162). -/

namespace Sys2Proof.Machine

/-- `n` bytes of `v`, most significant first. -/
def be : Nat → Nat → List Byte
  | 0, _ => []
  | n + 1, v => be n (v / 256) ++ [BitVec.ofNat 8 v]

/-- The number a big-endian byte string spells. -/
def beNat (l : List Byte) : Nat := l.foldl (fun acc b => acc * 256 + b.toNat) 0

/-- The sixteen bytes of a unit, first byte first. -/
def unitBytes (u : BitVec 128) : List Byte := be 16 u.toNat

/-- The 512 bytes of a sector, from the first byte of unit 0 (R34). -/
def sectorBytes (x : Sector) : List Byte := x.toList.flatMap unitBytes

/-- Byte `o` of a sector; 0 beyond its end. -/
def sectorByte (x : Sector) (o : Nat) : Byte :=
  ((x.toList)[o / 16]?.getD 0).extractLsb' (8 * (15 - o % 16)) 8

/-- The big-endian field of `n` bytes at offset `o`. -/
def sectorField (x : Sector) (o n : Nat) : Nat :=
  beNat ((List.range n).map fun i => sectorByte x (o + i))

/-- The sector whose bytes are `l`, with zeros beyond its end (10.6). -/
def sectorOfBytes (l : List Byte) : Sector :=
  tab fun j =>
    let u := (l.drop (16 * j.val)).take 16
    BitVec.ofNat 128 (beNat (u ++ List.replicate (16 - u.length) 0))

/-- Bytes `o .. o + l.length - 1` of a sector replaced by `l`. -/
def sectorPatch (x : Sector) (o : Nat) (l : List Byte) : Sector :=
  let bs := sectorBytes x
  sectorOfBytes (bs.take o ++ l ++ bs.drop (o + l.length))

end Sys2Proof.Machine
end

