-- ==== Sys2Proof/Config.lean ====
section
/-! DEFINITION. What the spec leaves open, as constants with no body: no proof can see what they are.
Log entry 7 names each of them. -/

namespace Sys2Proof.Config

/-- The vendor's keyed, tweaked permutation of one 16-byte unit: key, media LBA, unit index (R34). -/
opaque cipher (k : Key) (m : Nat) (j : Fin 32) : Equiv.Perm (BitVec 128)

/-- How a credential is reduced to a verifier (R82): specified only by its effect. -/
opaque verifierOf (c : Credential) : Verifier

/-- The factory default credential of ADMIN, held outside the store (R82). -/
opaque factoryCredential : Credential

/-- The k-th key drawn from the internal random generator (R23). -/
opaque freshKey (k : Nat) : Key

/-- The keys a part is shipped with: 0 for range 0, 1 for the tail (R84). -/
opaque shippedKey (i : Nat) : Key

/-- The key used where no state that a run reaches asks for one: a MEDIA segment whose slot is not LIVE (R25). -/
opaque absentKey : Key

end Sys2Proof.Config
end

