-- ==== Sys2Proof/Machine/State.lean ====
section
/-! DEFINITION. The state of the Distrel 4160, block by block (1.2), the reasons a step can stop, and the state
right after a first power-on of a part as shipped. -/

namespace Sys2Proof.Machine

/-- Why the machine stops. The spec gives every command an effect, so there is no reason: no constructor. -/
inductive Fault where
  deriving DecidableEq, Repr

/-- Why a command has no meaning. -/
inductive Refusal where
  /-- Raised by no arm of exec: every command has its meaning. Safe: the machine would stop where the block goes on. -/
  | notModelled (mnemonic : String)
  deriving DecidableEq, Repr

/-! ### Frames (R162) -/

inductive Opcode where
  | read | write | trim | flush | identify | secSend | secRecv | pass
  deriving DecidableEq, Repr

/-- A frame by class, without its check fields, which its class and body fix (R162, R164). -/
inductive Frame where
  | cmd (tag : Byte) (op : Opcode) (start : BitVec 48) (count : BitVec 16) (params : BitVec 120)
  | data (tag : Byte) (bit : Bool) (body : Sector)
  | stat (tag : Byte) (status : Byte) (code : BitVec 16)
  | grant (tag : Byte) (count : BitVec 16)
  | abort (tag : Byte)
  | sleep
  | wake
  | linkReset
  | powerStatus (value : Byte)
  deriving DecidableEq, Repr

/-- A frame in the front send order. `reply` is present on a held reply's DATA frame and holds the event flags
that the reply took (R165, R182). -/
structure FrontOut where
  frame : Frame
  reply : Option (BitVec 13)
  deriving DecidableEq, Repr

/-- The sequence state of a tag (R166): `stalled` is inbound mode STALLED. -/
structure SeqState where
  expected : Bool
  outbound : Bool
  stalled : Bool
  lastCrc : Option (BitVec 16)
  deriving DecidableEq, Repr

/-- The sequence state at power-on and at the start of each command (R167). -/
def SeqState.start : SeqState := ⟨false, false, false, none⟩

/-- Front Channel Port. -/
structure Fcp where
  framer : Framer
  seq : Vector SeqState 32
  sendOrder : List FrontOut
  onLanes : Option Frame
  deriving DecidableEq, Repr

/-- What the MCP, the CPH and the CXM keep for one media tag: sequence state (R166), media write credit and
sectors sent down (R72, R73), sectors granted, received and still reserved (R41, R74), the end of the running
media timer (R56) and of quiescing (R58), in clock units, and whether a quiescing of the tag has ended since its command was issued,
after which the command is over and its late frames are stray (R76, R77). -/
structure Lane where
  seq : SeqState
  credit : Nat
  sent : Nat
  granted : Nat
  received : Nat
  reserved : Nat
  timer : Option Nat
  quiesce : Option Nat
  quiesced : Bool
  deriving DecidableEq, Repr

def Lane.start : Lane := ⟨SeqState.start, 0, 0, 0, 0, 0, none, none, false⟩

/-- Media Channel Port. -/
structure Mcp where
  framer : Framer
  lanes : Vector Lane 130
  sendOrder : List Frame
  onLanes : Option Frame
  deriving DecidableEq, Repr

/-! ### Ranges and key slots -/

/-- A range record with its live lock flags (1.2). -/
structure Range where
  cfg : RangeCfg
  readLocked : Bool
  writeLocked : Bool
  deriving DecidableEq, Repr

/-- Range Resolver. `ownRecord` is the capacity field of the own identity record once that has arrived (R1, R39). -/
structure Rrs where
  ranges : Vector Range 17
  tailErased : Bool
  window : BootWindow
  capacity : Option Nat
  offered : Option Nat
  ownRecord : Option Nat
  bootDone : Bool
  bootImageWrite : Bool
  deriving DecidableEq, Repr

/-- A slot's state; the key is present in LIVE only (R23, R24). -/
inductive SlotKey where
  | absent
  | sealed
  | live (key : Key)
  | destroyed
  deriving DecidableEq, Repr

structure Slot where
  key : SlotKey
  uses : Nat
  deriving DecidableEq, Repr

/-- A sector held in the return buffer: its media tag, its place in the tag's command, its plaintext (R40). -/
structure Held where
  tag : Fin 130
  place : Nat
  body : Sector
  deriving DecidableEq, Repr

/-- Cipher Path. -/
structure Cph where
  slots : Vector Slot 18
  held : List Held
  deriving DecidableEq, Repr

/-! ### Contexts -/

/-- The statuses of 3.5. -/
inductive FrontStatus where
  | good | notReady | badLength | busy | outOfRange | windowReadOnly | fragmented | erased | locked
  | mediaError | mediaTimeout | dataTimeout | aborted | protocol
  deriving DecidableEq, Repr

inductive CtxState where
  | resolving | awaitData | mediaWait | delivering | aborting
  deriving DecidableEq, Repr

inductive Treatment where
  | media | fill | absorb
  deriving DecidableEq, Repr

/-- The phases of R45. -/
inductive Phase where
  | pending | queued | issued | discarding | draining | active | done | failed
  deriving DecidableEq, Repr

/-- A segment's error (R45). -/
inductive SegError where
  | media (code : BitVec 16)
  | timeout
  deriving DecidableEq, Repr

/-- A segment record (R20, R45). A forwarded segment has no extent, media start, treatment or slot. `error` is
what the segment status holds in FAILED; it is kept from DRAINING on, where the status is still GOOD, and absent before (DESIGN
CHOICE, log 68). `uses` says the segment holds a use of its slot (R25). -/
structure Segment where
  extent : Option Extent
  mediaStart : Option Nat
  treatment : Option Treatment
  slot : Option (Fin 18)
  error : Option SegError
  phase : Phase
  uses : Bool
  deriving DecidableEq, Repr

/-- A front grant with missing frames: how many, and the clock at its issue (R59). -/
structure Grant where
  missing : Nat
  issued : Nat
  deriving DecidableEq, Repr

/-- The outcomes of a reply (R179). -/
inductive Outcome where
  | done | defer | refused | halted | noRequest | pending
  deriving DecidableEq, Repr

/-- The reasons of a REFUSED reply (R179). -/
inductive Reason where
  | none | badRequest | denied | notPermitted | lockdown | bayMismatch | tableFull | wiping | busy | storeFault
  deriving DecidableEq, Repr

/-- A reply record (R179). `taken` holds the event flags a READ_EVENTS reply carries (R182). -/
structure Reply where
  outcome : Outcome
  reason : Reason
  retryAfter : Nat
  code : Byte
  body : List Byte
  taken : BitVec 13
  deriving DecidableEq, Repr

/-- The three fields of a PASS that go down unchanged (R170). -/
structure PassFields where
  start : BitVec 48
  count : BitVec 16
  params : BitVec 120
  deriving DecidableEq, Repr

/-- A context record in use (R44). `record` is the NO_REQUEST or PENDING record of a SEC_RECV that waits to go up. -/
structure Context where
  opcode : Opcode
  start : Option Nat
  count : Option Nat
  segs : List Segment
  done : Nat
  state : CtxState
  status : FrontStatus
  code : BitVec 16
  ungranted : Nat
  grants : List Grant
  passed : Option PassFields
  record : Option Reply
  deriving DecidableEq, Repr

/-- Context Manager: the Context Table; `none` is FREE. -/
structure Cxm where
  contexts : Vector (Option Context) 32
  deriving DecidableEq, Repr

/-- A staged sector: its media tag, its place in the segment, its ciphertext (R66). -/
structure Staged where
  tag : Fin 130
  place : Nat
  body : Sector
  deriving DecidableEq, Repr

/-- Staging Buffer; occupancy is the length of `staged`. -/
structure Stg where
  staged : List Staged
  hold : Bool
  grantOrder : List (Fin 32)
  deriving DecidableEq, Repr

/-- A sweep chunk (R141, R142). -/
structure Chunk where
  first : Nat
  len : Nat
  method : Method
  deriving DecidableEq, Repr

/-- Media Arbiter. `issued` lists the media tags whose issued command no STAT or ABORT has ended and that do not quiesce, in order
of issue (R77, R80). -/
structure Mar where
  ready : List (Fin 130)
  identify : Bool
  chunk : Option Chunk
  share : Nat
  issued : List (Fin 130)
  deriving DecidableEq, Repr

/-! ### Authorities, converter, response, wipe, retention -/

/-- Authority Unit. -/
structure Aut where
  authorities : Vector Authority 8
  throttle : Vector (Option Nat) 8
  envelopes : Vector (Option Envelope) 64
  dead : DeadStart
  deriving DecidableEq, Repr

inductive BayPhase where
  | idle | zeroing | integrating | deintegrating
  deriving DecidableEq, Repr

/-- The classes of a completed conversion (R108, R109). -/
inductive BayClass where
  | hit | mismatch | openBay | short | fault
  deriving DecidableEq, Repr

inductive Requester where
  | startUp
  | wake
  | measure (work : Nat)
  | enroll (work : Nat) (tolerance : Nat)
  deriving DecidableEq, Repr

structure Conversion where
  mode : BayMode
  setting : Setting
  requesters : List Requester
  deriving DecidableEq, Repr

/-- A result record (R108). `requester` is the requester's code (10.6). -/
structure BayResult where
  mode : BayMode
  setting : Setting
  d : Nat
  r : Option Nat
  cls : BayClass
  requester : Nat
  deriving DecidableEq, Repr

/-- Bay Sense Converter. `none` in `lastBay` and `lastSelf` is class NOT_MEASURED. -/
structure Bsc where
  phase : BayPhase
  phaseStart : Nat
  running : Option Conversion
  waiting : Option Conversion
  lastBay : Option BayResult
  lastSelf : Option BayResult
  awaiting : Bool
  record : BayRecord
  deriving DecidableEq, Repr

/-- Response Controller. -/
structure Rsp where
  src : SourceRec
  cfg : ResponseCfg
  effective : Vector (Option Action) 6
  deriving DecidableEq, Repr

/-- Where the store writes of the present erase set stand (R138). -/
inductive EraseStage where
  | none | writing | closing
  deriving DecidableEq, Repr

/-- Wipe Sequencer. `unfinished` is the record of a finished full sweep as the store keeps it until its DONE record is queued
(R145). -/
structure Wsq where
  wipe : WipeRec
  chunkOut : Option Chunk
  chunkStale : Bool
  eraseStage : EraseStage
  donePending : Bool
  unfinished : Option WipeRec
  deriving DecidableEq, Repr

inductive SleepState where
  | awake | entering | asleep | waking
  deriving DecidableEq, Repr

inductive RetTimer where
  | stopped
  | running (till : Nat)
  | expired
  deriving DecidableEq, Repr

inductive SleepOutcome where
  | none | restored | relockedBay | expired | nothingRetained
  deriving DecidableEq, Repr

/-- A retained entry: range and wrapped key (R151). -/
structure Retained where
  range : Fin 17
  wrapped : Wrapped
  deriving DecidableEq, Repr

/-- Retention Block. -/
structure Rtb where
  sleep : SleepState
  wakeHeld : Bool
  retained : List Retained
  key : Option Key
  timer : RetTimer
  relocked : BitVec 17
  outcome : SleepOutcome
  limit : Nat
  deriving DecidableEq, Repr

/-! ### Management Channel and Configuration Store -/

inductive Channel where
  | idle | working | replyReady
  deriving DecidableEq, Repr

/-- A request record without its credential: `bytes` is the record with the credential's bytes zero (R178). -/
structure Request where
  code : Byte
  auth : Byte
  bodyLen : Nat
  bytes : Sector
  deriving DecidableEq, Repr

/-- A store write that a request will queue: a record as it then stands, or a given value (R187). -/
inductive Write where
  | cur (id : RecordId)
  | val (r : Record)
  deriving DecidableEq, Repr

/-- Where a request stands: waiting for its tentative write (R87), verifying until a time, waiting for its owning
block, waiting in the converter (R111), or with its reply formed (R179). -/
inductive Stage where
  | tentative
  | verifying (till : Nat)
  | ready
  | converting
  | finishing (reply : Reply)
  deriving DecidableEq, Repr

/-- A request being worked: the held request, or a detached one (R174, R177). `later` holds the writes to queue
once the earlier ones are reported (R189); `overtaken` is R90's mark of a full wipe during its verify. -/
structure Work where
  id : Nat
  req : Request
  cred : Option Credential
  carrier : Fin 32
  detached : Bool
  overtaken : Bool
  storeFailed : Bool
  stage : Stage
  later : List (List Write)
  deriving DecidableEq, Repr

/-- Management Channel. -/
structure Mgc where
  channel : Channel
  heldReply : Option Reply
  mark : Option (Fin 32)
  works : List Work
  nextId : Nat
  flags : BitVec 13
  noteMask : BitVec 13
  deriving DecidableEq, Repr

/-- A stored record: its value and whether it passes its check (R185). -/
structure Stored (α : Type) where
  val : α
  ok : Bool
  deriving DecidableEq, Repr

/-- The nonvolatile records (R185). -/
structure Nv where
  authorities : Vector (Stored Authority) 8
  envelopes : Vector (Stored (Option Envelope)) 64
  ranges : Vector (Stored RangeCfg) 17
  tail : Stored Bool
  bootWindow : Stored BootWindow
  bay : Stored BayRecord
  responseCfg : Stored ResponseCfg
  source : Stored SourceRec
  wipe : Stored WipeRec
  deadStart : Stored DeadStart
  flow : Stored Flow
  retention : Stored Nat
  noteMask : Stored (BitVec 13)
  deriving DecidableEq, Repr

/-- Who waits for the report of a write (R189): a request; an erase set's writes 1 to 3; its closing write; the
writes of R146; the DONE record of a sweep (R145). -/
inductive Writer where
  | request (id : Nat)
  | erase
  | closing
  | sweepEffects
  | sweepDone
  deriving DecidableEq, Repr

structure Entry where
  record : Record
  writers : List Writer
  deriving DecidableEq, Repr

structure Writing where
  entry : Entry
  retried : Bool
  till : Nat
  deriving DecidableEq, Repr

/-- Configuration Store. `mismatched` names the records left failing by a second mismatch and not stored since (R188). -/
structure Cfs where
  nv : Nv
  queue : List Entry
  writing : Option Writing
  waiting : List Entry
  mismatched : List RecordId
  deriving DecidableEq, Repr

/-- The whole state, block by block, with the command queue, the clock (1/8,192,000 s) and the count of draws. -/
structure State where
  fcp : Fcp
  mcp : Mcp
  rrs : Rrs
  cph : Cph
  cxm : Cxm
  stg : Stg
  flow : Flow
  mar : Mar
  aut : Aut
  bsc : Bsc
  rsp : Rsp
  wsq : Wsq
  rtb : Rtb
  mgc : Mgc
  cfs : Cfs
  clock : Nat
  draws : Nat
  pending : List Instr
  deriving DecidableEq, Repr

/-! ### As shipped (R185) and the state right after the first power-on (R101) -/

/-- 1 ms in clock units. -/
def msUnits : Nat := 8192

def Policy.shipped : Policy := ⟨false, false, false, false, false⟩

/-- The fields of an undefined user range, and of range 0 as shipped (R4). -/
def RangeCfg.shipped : RangeCfg := ⟨none, Policy.shipped, false⟩

/-- As shipped: ADMIN enabled with the factory credential, the others unset (R82). -/
def Authority.shipped (i : Fin 8) : Authority :=
  if i = 0 then ⟨.enabled, some (Config.verifierOf Config.factoryCredential), 5, 5, 0⟩
  else ⟨.unset, none, 5, 5, 0⟩

/-- The four shipped envelopes (R84). -/
def Envelope.shipped (p : Fin 64) : Option Envelope :=
  if p = 0 then some ⟨.authority 0, 0, ⟨.credential Config.factoryCredential, Config.shippedKey 0⟩⟩
  else if p = 1 then some ⟨.device, 0, ⟨.root, Config.shippedKey 0⟩⟩
  else if p = 2 then some ⟨.authority 0, 17, ⟨.credential Config.factoryCredential, Config.shippedKey 1⟩⟩
  else if p = 3 then some ⟨.device, 17, ⟨.root, Config.shippedKey 1⟩⟩
  else none

def BootWindow.shipped : BootWindow := ⟨0, true⟩

def BayRecord.shipped : BayRecord := ⟨none, .off, .standard, false⟩

/-- Factory defaults of the response configuration (R122). -/
def ResponseCfg.factory : ResponseCfg :=
  { map := #v[0, 1, 1, 1, 2, 1]
    actions := #v[.note, .lockAll, .cryptoErase, .fullWipe]
    enables := 0b0011
    armed := true
    method := .overwrite }

def SourceRec.empty : SourceRec := ⟨0, tab fun _ => .none⟩

/-- The wipe record as shipped (R134). -/
def WipeRec.shipped : WipeRec := ⟨.idle, 0, .eraseOnly, false, none, 0, 0, none, none⟩

def Flow.shipped : Flow := ⟨48, 16, 4⟩

/-- SOURCE_LATCHED, ACTION_STARTED, AUTH_BLOCKED and STORE_FAULT (R174). -/
def noteMaskShipped : BitVec 13 := 0b0010010001100

/-- Every record as shipped, passing its check (R185). -/
def Nv.shipped : Nv :=
  { authorities := tab fun i => ⟨Authority.shipped i, true⟩
    envelopes := tab fun p => ⟨Envelope.shipped p, true⟩
    ranges := tab fun _ => ⟨RangeCfg.shipped, true⟩
    tail := ⟨false, true⟩
    bootWindow := ⟨BootWindow.shipped, true⟩
    bay := ⟨BayRecord.shipped, true⟩
    responseCfg := ⟨ResponseCfg.factory, true⟩
    source := ⟨SourceRec.empty, true⟩
    wipe := ⟨WipeRec.shipped, true⟩
    deadStart := ⟨⟨0, 0⟩, true⟩
    flow := ⟨Flow.shipped, true⟩
    retention := ⟨30, true⟩
    noteMask := ⟨noteMaskShipped, true⟩ }

/-- The machine right after the first power-on of a part as shipped (R101; log 12). -/
def State.reset : State :=
  { fcp := ⟨.idle, tab fun _ => SeqState.start, [], none⟩
    mcp := ⟨.idle, tab fun _ => Lane.start, [], none⟩
    rrs :=
      { ranges := tab fun _ => ⟨RangeCfg.shipped, false, false⟩
        tailErased := false
        window := BootWindow.shipped
        capacity := none
        offered := none
        ownRecord := none
        bootDone := false
        bootImageWrite := false }
    cph :=
      { slots := tab fun r =>
          if r = 0 then ⟨.live (Config.shippedKey 0), 0⟩
          else if r = 17 then ⟨.live (Config.shippedKey 1), 0⟩
          else ⟨.absent, 0⟩
        held := [] }
    cxm := ⟨tab fun _ => none⟩
    stg := ⟨[], false, []⟩
    flow := Flow.shipped
    mar := ⟨[], true, none, 0, []⟩
    aut :=
      { authorities := tab Authority.shipped
        throttle := tab fun _ => none
        envelopes := tab Envelope.shipped
        dead := ⟨1, 0⟩ }
    bsc := ⟨.idle, 0, none, none, none, none, false, BayRecord.shipped⟩
    rsp := ⟨SourceRec.empty, ResponseCfg.factory, tab fun _ => none⟩
    wsq := ⟨WipeRec.shipped, none, false, .none, false, none⟩
    rtb := ⟨.awake, false, [], none, .stopped, 0, .none, 30⟩
    mgc := ⟨.idle, none, none, [], 0, 0b0000000000001, noteMaskShipped⟩
    cfs :=
      { nv := Nv.shipped
        queue := []
        writing := some ⟨⟨.deadStart ⟨1, 0⟩, []⟩, false, 5 * msUnits⟩
        waiting := []
        mismatched := [] }
    clock := 0
    draws := 0
    pending := [] }

end Sys2Proof.Machine
end

