-- ==== Sys2Proof/Machine/Frames.lean ====
section
/-! DEFINITION. Frames on the lanes (R162 to R164, 10.6): the CRC, the bytes of a frame as a port builds it, the checks
of a received frame, and the command that a byte string received on a port is (R166). -/

namespace Sys2Proof.Machine

/-- One bit into the CRC register, generator x^16 + x^12 + x^5 + 1 (R164). -/
def crcBit (r : BitVec 16) (b : Bool) : BitVec 16 :=
  if r.msb ^^ b then (r <<< 1) ^^^ 0x1021#16 else r <<< 1

/-- One byte into the CRC register, most significant bit first (R164). -/
def crcByte (r : BitVec 16) (b : Byte) : BitVec 16 :=
  [7, 6, 5, 4, 3, 2, 1, 0].foldl (fun r i => crcBit r (b.getLsbD i)) r

/-- The CRC over tag, flags and body, from a register of all ones, with no final inversion (R164). -/
def crc16 (l : List Byte) : BitVec 16 := l.foldl crcByte 0xFFFF#16

def Opcode.toByte : Opcode → Byte
  | .read => 0x01 | .write => 0x02 | .trim => 0x03 | .flush => 0x04
  | .identify => 0x05 | .secSend => 0x06 | .secRecv => 0x07 | .pass => 0x08

def Opcode.ofByte (b : Byte) : Option Opcode :=
  if b = 0x01 then some .read else if b = 0x02 then some .write else if b = 0x03 then some .trim
  else if b = 0x04 then some .flush else if b = 0x05 then some .identify else if b = 0x06 then some .secSend
  else if b = 0x07 then some .secRecv else if b = 0x08 then some .pass else none

/-- Front STAT status codes (10.6). -/
def FrontStatus.toByte : FrontStatus → Byte
  | .good => 0x00 | .notReady => 0x01 | .badLength => 0x02 | .busy => 0x03 | .outOfRange => 0x04
  | .windowReadOnly => 0x05 | .fragmented => 0x06 | .erased => 0x07 | .locked => 0x08 | .mediaError => 0x09
  | .mediaTimeout => 0x0A | .dataTimeout => 0x0B | .aborted => 0x0C | .protocol => 0x0D

/-- POWER_STATUS values (10.6). -/
def statusEntered : Byte := 0x01
def statusBusy : Byte := 0x02
def statusAwake : Byte := 0x03

/-- The class code of a frame (10.6). -/
def Frame.classCode : Frame → Byte
  | .cmd .. => 0x51 | .data .. => 0x52 | .stat .. => 0x53 | .grant .. => 0x54 | .abort .. => 0x55
  | .sleep => 0x5A | .wake => 0x5B | .linkReset => 0x5C | .powerStatus .. => 0x5D

/-- The tag byte; 0 for SLEEP, WAKE, LINK_RESET and POWER_STATUS (R162). -/
def Frame.tag : Frame → Byte
  | .cmd t .. => t | .data t .. => t | .stat t .. => t | .grant t .. => t | .abort t => t
  | .sleep | .wake | .linkReset | .powerStatus _ => 0

/-- The flags byte: the sequence bit of a DATA frame, otherwise 0 (R162). -/
def Frame.flagsByte : Frame → Byte
  | .data _ true _ => 1
  | _ => 0

/-- The body by class (10.6). -/
def Frame.body : Frame → List Byte
  | .cmd _ op start count params => op.toByte :: (be 6 start.toNat ++ be 2 count.toNat ++ be 15 params.toNat)
  | .data _ _ x => sectorBytes x
  | .stat _ st code => st :: be 2 code.toNat
  | .grant _ count => be 2 count.toNat
  | .abort _ | .sleep | .wake | .linkReset => []
  | .powerStatus v => [v]

/-- The bytes the CRC covers: tag, flags, body (R164). -/
def Frame.covered (f : Frame) : List Byte := f.tag :: f.flagsByte :: f.body

/-- The CRC of a frame as sent (R164). -/
def Frame.crc (f : Frame) : BitVec 16 := crc16 f.covered

/-- The whole frame as a port sends it (R162). -/
def Frame.bytes (f : Frame) : List Byte :=
  f.classCode :: ~~~f.classCode :: (f.covered ++ be 2 f.crc.toNat)

/-- The body sizes of R162, by class code; none for a code that names no class. -/
def bodySize (c : Byte) : Option Nat :=
  if c = 0x51 then some 24 else if c = 0x52 then some 512 else if c = 0x53 then some 3
  else if c = 0x54 then some 2 else if c = 0x55 then some 0 else if c = 0x5A then some 0
  else if c = 0x5B then some 0 else if c = 0x5C then some 0 else if c = 0x5D then some 1 else none

/-- The classes a port takes inbound (table of R162). -/
def takesInbound : Port → Byte → Bool
  | .front, c => c = 0x51 || c = 0x52 || c = 0x55 || c = 0x5A || c = 0x5B || c = 0x5C
  | .media, c => c = 0x52 || c = 0x53 || c = 0x54 || c = 0x55

/-- A body of a class read into a frame; none where a field holds a value 10.6 does not define (R163). -/
def frameOfBody (c tag : Byte) (bit : Bool) (body : List Byte) : Option Frame :=
  if c = 0x51 then
    (Opcode.ofByte (body.headD 0)).map fun op =>
      .cmd tag op (BitVec.ofNat 48 (beNat ((body.drop 1).take 6))) (BitVec.ofNat 16 (beNat ((body.drop 7).take 2)))
        (BitVec.ofNat 120 (beNat (body.drop 9)))
  else if c = 0x52 then some (.data tag bit (sectorOfBytes body))
  else if c = 0x53 then
    if (body.headD 0).toNat ≤ 1 then some (.stat tag (body.headD 0) (BitVec.ofNat 16 (beNat (body.drop 1)))) else none
  else if c = 0x54 then
    if beNat body = 0 then none else some (.grant tag (BitVec.ofNat 16 (beNat body)))
  else if c = 0x55 then some (.abort tag)
  else if c = 0x5A then some .sleep
  else if c = 0x5B then some .wake
  else if c = 0x5C then some .linkReset
  else none

/-- The tag test of the FCP: CMD, DATA and ABORT tags are at most 31, the others 0 (R163). -/
def tagAllowed : Port → Byte → Byte → Bool
  | .front, c, tag => if c = 0x51 || c = 0x52 || c = 0x55 then tag.toNat ≤ 31 else tag = 0
  | .media, _, _ => true

/-- The checks of R163 on the bytes of one frame received at a port: the frame if it passes them all. -/
def parseFrame (p : Port) : List Byte → Option Frame
  | c :: k :: tag :: flags :: rest =>
    match bodySize c with
    | none => none
    | some n =>
      if k = ~~~c ∧ takesInbound p c ∧ rest.length = n + 2
          ∧ (flags = 0 ∨ (c = 0x52 ∧ flags = 1)) ∧ tagAllowed p c tag
          ∧ beNat (rest.drop n) = (crc16 (tag :: flags :: rest.take n)).toNat then
        frameOfBody c tag (flags = 1) (rest.take n)
      else none
  | _ => none

/-- The command that a frame which passed its checks is, with what its port's framer is left in (R166). -/
def commandOf (after : Framer) : Frame → Option Instr
  | .cmd t .read start count _ => some (.read t start count after)
  | .cmd t .write start count _ => some (.write t start count after)
  | .cmd t .trim start count _ => some (.trim t start count after)
  | .cmd t .flush _ _ _ => some (.flush t after)
  | .cmd t .identify _ _ _ => some (.identify t after)
  | .cmd t .secSend _ count _ => some (.secSend t count after)
  | .cmd t .secRecv _ count _ => some (.secRecv t count after)
  | .cmd t .pass start count params => some (.pass t start count params after)
  | .sleep => some (.sleep after)
  | .wake => some (.wake after)
  | .linkReset => some (.linkReset after)
  | .stat t st code => some (.mediaStat t st code after)
  | .grant t count => some (.mediaGrant t count after)
  | .data .. | .abort .. | .powerStatus .. => none

/-- The command that a byte string received on a port is, whichever mark ended it: FRAME_CHECK_FAIL where it fails a check
(R163, R166). -/
def receive (p : Port) (bytes : List Byte) (after : Framer) : Instr :=
  match p, parseFrame p bytes with
  | _, none => .frameCheckFail p bytes after
  | .front, some (.data t b x) => .frontData t b x after
  | .media, some (.data t b x) => .mediaData t b x after
  | .front, some (.abort t) => .frontAbort t after
  | .media, some (.abort t) => .mediaAbort t after
  | p, some f => (commandOf after f).getD (.frameCheckFail p bytes after)

end Sys2Proof.Machine
end

