-- ==== Sys2Proof/Machine/Flags.lean ====
section
/-! DEFINITION. Event flags and the conditions that are computed from the state: the NOTE line, lockdown and
concealment, the window, the bridge state, the converter's count. -/

namespace Sys2Proof.Machine

/-- The thirteen event flags (R181). -/
inductive Flag where
  | powerOn | linkReset | sourceLatched | actionStarted | eraseDone | sweepDone | bayResult | authBlocked
  | linkFault | mediaFault | storeFault | replyDiscarded | retentionExpired
  deriving DecidableEq, Repr

/-- The bit of a flag in the flag fields (10.6). -/
def Flag.bit : Flag → BitVec 13
  | .powerOn => 0x0001 | .linkReset => 0x0002 | .sourceLatched => 0x0004 | .actionStarted => 0x0008
  | .eraseDone => 0x0010 | .sweepDone => 0x0020 | .bayResult => 0x0040 | .authBlocked => 0x0080
  | .linkFault => 0x0100 | .mediaFault => 0x0200 | .storeFault => 0x0400 | .replyDiscarded => 0x0800
  | .retentionExpired => 0x1000

/-- Set event flags; setting a set flag changes nothing (R181). -/
def State.raiseSet (s : State) (f : BitVec 13) : State := { s with mgc.flags := s.mgc.flags ||| f }

/-- Set one event flag (R181). -/
def State.raise (s : State) (f : Flag) : State := s.raiseSet f.bit

/-- Whether an event flag is set. -/
def State.flagged (s : State) (f : Flag) : Bool := s.mgc.flags &&& f.bit != 0

/-- The NOTE output: some flag is both set and held in the mask (R184). -/
def State.note (s : State) : Bool := s.mgc.flags &&& s.mgc.noteMask != 0

/-- The index of a source (10.6). -/
def Source.idx : Source → Fin 6
  | .nonadminBlocked => 0 | .adminBlocked => 1 | .bayMismatch => 2 | .bayOpen => 3 | .deadman => 4 | .storeFault => 5

def Source.all : List Source := [.nonadminBlocked, .adminBlocked, .bayMismatch, .bayOpen, .deadman, .storeFault]

/-- The set that holds one source. -/
def Source.bit (x : Source) : BitVec 6 := 1#6 <<< x.idx.val

/-- The code of an action, which orders the actions by severity (R122, 10.6). -/
def Action.code : Action → Nat
  | .note => 0 | .lockAll => 1 | .concealAll => 2 | .cryptoErase => 3 | .fullWipe => 4

/-- Some source has an effective action at least as severe as `n`. -/
def State.effectiveAtLeast (s : State) (n : Nat) : Bool :=
  Source.all.any fun x => match s.rsp.effective[x.idx] with
    | some a => decide (n ≤ a.code)
    | none => false

/-- Lockdown (R126). -/
def State.lockdown (s : State) : Bool := s.rsp.cfg.armed && s.effectiveAtLeast 1

/-- Concealment (R127). -/
def State.concealment (s : State) : Bool := s.rsp.cfg.armed && s.effectiveAtLeast 2

/-- A sweep is running (R135). -/
def State.sweepRunning (s : State) : Bool :=
  s.wsq.wipe.state == .sweeping || (s.wsq.wipe.state == .erasing && s.wsq.wipe.method != .eraseOnly)

/-- A wipe running, as the identity record reports it (R22). -/
def State.wipeRunning (s : State) : Bool := s.wsq.wipe.state == .erasing || s.wsq.wipe.state == .sweeping

/-- The boot window is active (R11). -/
def State.windowActive (s : State) : Bool :=
  decide (0 < s.rrs.window.w) && s.rrs.window.enable && !s.rrs.bootDone

/-- Visible capacity V = C − W, absent with C (R1). -/
def State.visible (s : State) : Option Nat := s.rrs.capacity.map (· - s.rrs.window.w)

/-- The three bridge states (R102, R151). -/
inductive BridgeState where
  | starting | ready | sleeping
  deriving DecidableEq, Repr

def State.bridge (s : State) : BridgeState :=
  if s.rtb.sleep ≠ .awake then .sleeping else if s.rrs.capacity.isNone then .starting else .ready

/-- A range is defined: range 0 always, a user range when it has an extent (1.2). -/
def State.isDefined (s : State) (r : Fin 17) : Bool := r == 0 || s.rrs.ranges[r].cfg.extent.isSome

/-- Some lock is enabled (R10). -/
def Policy.anyLock (p : Policy) : Bool := p.readEn || p.writeEn

/-- A range locked in both directions (R27). -/
def Range.lockedBoth (g : Range) : Bool := g.readLocked && g.writeLocked

/-- The set of all defined ranges and the tail (R136). -/
def State.everything (s : State) : BitVec 18 :=
  (List.finRange 17).foldl (fun b r => if s.isDefined r then b ||| (1#18 <<< r.val) else b) (1#18 <<< 17)

/-- One period of the 65,536 Hz count clock in clock units. -/
def countUnits : Nat := 125

/-- A duration in ms, in clock units. -/
def ms (n : Nat) : Nat := n * msUnits

/-- Counts of a full scale (R107). -/
def Setting.f : Setting → Nat
  | .fine => 6400 | .standard => 3200 | .quick => 1600 | .coarse => 800

/-- The length in counts of the present phase (R106); for DEINTEGRATING, its longest. -/
def State.phaseLength (s : State) : Nat :=
  match s.bsc.running with
  | none => 0
  | some c => match s.bsc.phase with
    | .idle => 0
    | .zeroing | .deintegrating => c.setting.f
    | .integrating => c.setting.f / 2

/-- The count elapsed in the present phase (R105). -/
def State.bayCount (s : State) : Nat := min s.phaseLength ((s.clock - s.bsc.phaseStart) / countUnits)

/-- BAY_DRV drives its current from ZEROING to the end of DEINTEGRATING (R106). -/
def State.bayDrive (s : State) : Bool := s.bsc.phase != .idle

/-- The clock moves on to a time, never back (log 2). -/
def State.advance (s : State) (t : Nat) : State := { s with clock := max s.clock t }

end Sys2Proof.Machine
end

