-- ==== Sys2Proof/Machine/Resolve.lean ====
section
/-! DEFINITION. Address resolution (R15 to R20, R26) and the piece layout it shares with the sweep (R141). -/

namespace Sys2Proof.Machine

/-- The extents of the defined user ranges (1.2). -/
def State.userExtents (s : State) : List (Fin 17 × Extent) :=
  (List.finRange 17).filterMap fun (r : Fin 17) =>
    if r = 0 then none else (s.rrs.ranges[r].cfg.extent).map fun e => (r, e)

/-- `x` put into a strictly rising list. -/
def insertPoint (x : Nat) : List Nat → List Nat
  | [] => [x]
  | y :: ys => if x < y then x :: y :: ys else if x = y then y :: ys else y :: insertPoint x ys

/-- Every start and end of an extent that falls strictly inside [a, b), rising (R17). -/
def cutPoints (es : List Extent) (a b : Nat) : List Nat :=
  (es.flatMap fun e => [e.start, e.start + e.len]).foldl
    (fun ps x => if a < x ∧ x < b then insertPoint x ps else ps) []

/-- [a, b) cut at rising points. -/
def cutAt (a : Nat) : List Nat → Nat → List Extent
  | [], b => if a < b then [⟨a, b - a⟩] else []
  | p :: ps, b => ⟨a, p - a⟩ :: cutAt p ps b

/-- The range that an LBA belongs to: the user range that contains it, or range 0 (R17). Where two user ranges overlap, as a load
may leave them, it belongs to the one of lower index (DESIGN CHOICE, log 61). -/
def ownerOf (es : List (Fin 17 × Extent)) (x : Nat) : Fin 17 :=
  match es.find? fun p => decide (p.2.start ≤ x ∧ x < p.2.start + p.2.len) with
  | some p => p.1
  | none => 0

/-- [a, b) cut into pieces that lie wholly in one range, with their ranges (R17). -/
def State.lbaPieces (s : State) (a b : Nat) : List (Fin 17 × Extent) :=
  (cutAt a (cutPoints (s.userExtents.map (·.2)) a b) b).map fun e => (ownerOf s.userExtents e.start, e)

/-- The slot of a range. -/
def rangeSlot (r : Fin 17) : Fin 18 := r.castSucc

/-- The slot of the tail (R23). -/
def tailSlot : Fin 18 := 17

/-- A slot is LIVE (R24). -/
def Slot.isLive (x : Slot) : Bool := match x.key with | .live _ => true | _ => false

/-- The treatment of a piece, or its reason for refusal (R18, R26). -/
def State.treat (s : State) (isRead : Bool) (slot : Fin 18) : Treatment ⊕ FrontStatus :=
  let media : Treatment ⊕ FrontStatus := if s.cph.slots[slot].isLive then .inl .media else .inr .locked
  if h : slot.val < 17 then
    let r : Fin 17 := ⟨slot.val, h⟩
    let g := s.rrs.ranges[r]
    if g.cfg.erased then (if isRead then .inl .fill else .inr .erased)
    else if (if isRead then g.readLocked else g.writeLocked) then
      if r ≠ 0 ∧ (g.cfg.policy.conceal ∨ s.concealment) then .inl (if isRead then .fill else .absorb)
      else .inr .locked
    else media
  else if s.rrs.tailErased then (if isRead then .inl .fill else .inr .erased)
  else media

/-- The segment record of a piece (R20). -/
def segmentOf (slot : Fin 18) (e : Extent) (mediaStart : Nat) (t : Treatment) : Segment :=
  { extent := some e
    mediaStart := if t = .media then some mediaStart else none
    treatment := some t
    slot := some slot
    error := none
    phase := if t = .media then .pending else .active
    uses := t = .media }

/-- The order of refusal reasons (R19). -/
def refusalOrder : List FrontStatus := [.outOfRange, .windowReadOnly, .fragmented, .erased, .locked]

/-- The count of a READ, WRITE or TRIM: c, or 65,536 when c = 0 (R15). -/
def sectorCount (c : BitVec 16) : Nat := if c = 0 then 65536 else c.toNat

/-- The pieces of [a, b) with their slots and media LBAs: the window piece first (R16, R17). -/
def State.pieces (s : State) (v a b : Nat) : List (Fin 18 × Extent × Nat) :=
  let w := if s.windowActive then s.rrs.window.w else 0
  (if a < w then [(tailSlot, ⟨a, min b w - a⟩, v + a)] else []) ++
  (if max a w < b then (s.lbaPieces (max a w) b).map fun p => (rangeSlot p.1, p.2, p.2.start) else [])

/-- Resolution of a READ, WRITE or TRIM against visible capacity `v`: its segment list, or the one status of its
refusal (R15 to R20). -/
def State.resolve (s : State) (v : Nat) (isRead : Bool) (start n : Nat) : Except FrontStatus (List Segment) :=
  if v < start + n then .error .outOfRange
  else
    let ps := s.pieces v start (start + n)
    let outcomes := ps.map fun p => s.treat isRead p.1
    let windowRefused := !isRead && !s.rrs.bootImageWrite && ps.any fun p => p.1 == tailSlot
    let reasons := (if windowRefused then [FrontStatus.windowReadOnly] else []) ++
      (if 4 < ps.length then [FrontStatus.fragmented] else []) ++
      outcomes.filterMap fun o => match o with | .inr r => some r | .inl _ => none
    match refusalOrder.find? fun r => reasons.contains r with
    | some r => .error r
    | none => .ok ((ps.zip outcomes).map fun p =>
        segmentOf p.1.1 p.1.2.1 p.1.2.2 (match p.2 with | .inl t => t | .inr _ => .media))

/-! ### The piece layout of a sweep (R141) -/

/-- The pieces of a scope in ascending order, when C is present (R141). -/
def State.sweepPieces (s : State) (scope : BitVec 18) : List Extent :=
  match s.rrs.capacity with
  | none => []
  | some c =>
    let v := c - s.rrs.window.w
    ((s.lbaPieces 0 v).filterMap fun p => if scope.getLsbD p.1.val then some p.2 else none) ++
      (if scope.getLsbD 17 ∧ v < c then [⟨v, c - v⟩] else [])

/-- The lowest LBA at or above `x` in the pieces, or `c` if there is none (R141). -/
def nextLba (ps : List Extent) (x c : Nat) : Nat :=
  match ps.find? fun e => decide (x < e.start + e.len) with
  | some e => max x e.start
  | none => c

/-- The chunk at a cursor: to the end of its piece, at most 256 sectors (R141). -/
def chunkAt (ps : List Extent) (m : Method) (x : Nat) : Option Chunk :=
  (ps.find? fun e => decide (e.start ≤ x ∧ x < e.start + e.len)).map fun e =>
    ⟨x, min 256 (e.start + e.len - x), m⟩

/-- The wipe record once the closing write completed (R138); what the closing write itself carries is `State.storedWipe`. The cursor
follows C as it stands when this is asked: at the queueing for the stored record, at the report for the volatile one (DESIGN CHOICE,
log 69). -/
def State.closingForm (s : State) : WipeRec :=
  let x := { s.wsq.wipe with eraseSet := 0 }
  if x.state ≠ .erasing then x
  else if x.method = .eraseOnly then { x with state := .done, outcome := some .complete }
  else { x with state := .sweeping, cursor := s.rrs.capacity.map (nextLba (s.sweepPieces x.scope) 0) }

/-- The wipe record as it is stored. While the closing write of an erase is outstanding it carries that write's form (R138;
log 15). From the end of a full sweep until its DONE record is queued it carries the sweep still SWEEPING, as the store keeps it
until then (R145), with the scope and the erase set of the moment; R138 and R145 pull apart there (DESIGN CHOICE, log 57). -/
def State.storedWipe (s : State) : WipeRec :=
  let x := if s.wsq.eraseStage = .closing then s.closingForm else s.wsq.wipe
  match s.wsq.unfinished with
  | some y => if s.wsq.donePending ∧ x.state = .done then { y with scope := x.scope, eraseSet := x.eraseSet } else x
  | none => x

end Sys2Proof.Machine
end

