-- ==== Sys2Proof/Machine/Store.lean ====
section
/-! DEFINITION. The Configuration Store (chapter 12): the value a record carries, the write queue, the end of a write. -/

namespace Sys2Proof.Machine

/-- An authority record as it is stored: BLOCKED where no try remains, also while the verify of the last try is in flight
and the volatile state is still ENABLED (R83, R87, R90). -/
def Authority.stored (a : Authority) : Authority := if a.remaining = 0 then { a with state := .blocked } else a

/-- The value of a record as it is stored when its owner queues it now. -/
def State.current (s : State) : RecordId → Record
  | .authority i => .authority i s.aut.authorities[i].stored
  | .envelope p => .envelope p s.aut.envelopes[p]
  | .range r => .range r s.rrs.ranges[r].cfg
  | .tail => .tail s.rrs.tailErased
  | .bootWindow => .bootWindow s.rrs.window
  | .bay => .bay s.bsc.record
  | .responseCfg => .responseCfg s.rsp.cfg
  | .source => .source s.rsp.src
  | .wipe => .wipe s.storedWipe
  | .deadStart => .deadStart s.aut.dead
  | .flow => .flow s.flow
  | .retention => .retention s.rtb.limit
  | .noteMask => .noteMask s.mgc.noteMask

/-- A new value for an entry in place: the value changes, the writers gather (R187, R189). -/
def foldEntry (r : Record) (ws : List Writer) (e : Entry) : Entry :=
  if e.record.id = r.id then ⟨r, e.writers ++ ws⟩ else e

/-- Whether a list of entries names a record. -/
def names (es : List Entry) (i : RecordId) : Bool := es.any fun e => e.record.id == i

/-- A write taken by the queue (table of R187). -/
def State.queueWrite (s : State) (r : Record) (ws : List Writer) : State :=
  if names s.cfs.queue r.id then { s with cfs.queue := s.cfs.queue.map (foldEntry r ws) }
  else if names s.cfs.waiting r.id then { s with cfs.waiting := s.cfs.waiting.map (foldEntry r ws) }
  else if s.cfs.queue.length < 8 then { s with cfs.queue := s.cfs.queue ++ [⟨r, ws⟩] }
  else { s with cfs.waiting := s.cfs.waiting ++ [⟨r, ws⟩] }

/-- Queue a record as its owner holds it now. -/
def State.queueRecord (s : State) (i : RecordId) (ws : List Writer) : State := s.queueWrite (s.current i) ws

/-- Queue records one after another. -/
def State.queueRecords (s : State) (is : List RecordId) (ws : List Writer) : State :=
  is.foldl (fun s i => s.queueRecord i ws) s

/-- The store starts no write while ASLEEP or WAKING (R190). -/
def State.storePaused (s : State) : Bool := s.rtb.sleep == .asleep || s.rtb.sleep == .waking

/-- With no write in progress and no pause, the head entry becomes the write in progress, and the oldest waiting
write takes the place freed (R187). -/
def State.pump (s : State) : State :=
  match s.cfs.writing, s.cfs.queue with
  | none, e :: es =>
    if s.storePaused then s
    else
      { s with cfs :=
        { s.cfs with
          writing := some ⟨e, false, s.clock + ms 5⟩
          queue := es ++ s.cfs.waiting.take 1
          waiting := s.cfs.waiting.drop 1 } }
  | _, _ => s

/-- Every entry of the store: in progress, queued, waiting. -/
def State.storeEntries (s : State) : List Entry :=
  (s.cfs.writing.map (·.entry)).toList ++ s.cfs.queue ++ s.cfs.waiting

/-- Some write of a writer has not been reported (R189). -/
def State.owes (s : State) (w : Writer) : Bool := s.storeEntries.any fun e => e.writers.contains w

/-- The store has drained: queue empty, nothing in progress, nothing waiting (R154, R190). -/
def State.drained (s : State) : Bool := s.storeEntries.isEmpty

/-- A value placed in the store, with the mark of whether the record then passes its check (R185, R188). -/
def Nv.put (nv : Nv) (ok : Bool) : Record → Nv
  | .authority i v => { nv with authorities := nv.authorities.set i ⟨v, ok⟩ }
  | .envelope p v => { nv with envelopes := nv.envelopes.set p ⟨v, ok⟩ }
  | .range r v => { nv with ranges := nv.ranges.set r ⟨v, ok⟩ }
  | .tail v => { nv with tail := ⟨v, ok⟩ }
  | .bootWindow v => { nv with bootWindow := ⟨v, ok⟩ }
  | .bay v => { nv with bay := ⟨v, ok⟩ }
  | .responseCfg v => { nv with responseCfg := ⟨v, ok⟩ }
  | .source v => { nv with source := ⟨v, ok⟩ }
  | .wipe v => { nv with wipe := ⟨v, ok⟩ }
  | .deadStart v => { nv with deadStart := ⟨v, ok⟩ }
  | .flow v => { nv with flow := ⟨v, ok⟩ }
  | .retention v => { nv with retention := ⟨v, ok⟩ }
  | .noteMask v => { nv with noteMask := ⟨v, ok⟩ }

/-- Whether a stored record passes its check (R185). -/
def Nv.passes (nv : Nv) : RecordId → Bool
  | .authority i => nv.authorities[i].ok
  | .envelope p => nv.envelopes[p].ok
  | .range r => nv.ranges[r].ok
  | .tail => nv.tail.ok
  | .bootWindow => nv.bootWindow.ok
  | .bay => nv.bay.ok
  | .responseCfg => nv.responseCfg.ok
  | .source => nv.source.ok
  | .wipe => nv.wipe.ok
  | .deadStart => nv.deadStart.ok
  | .flow => nv.flow.ok
  | .retention => nv.retention.ok
  | .noteMask => nv.noteMask.ok

/-- Every record passes its check (R186). -/
def Nv.allPass (nv : Nv) : Bool :=
  nv.authorities.toList.all (·.ok) && nv.envelopes.toList.all (·.ok) && nv.ranges.toList.all (·.ok) &&
  nv.tail.ok && nv.bootWindow.ok && nv.bay.ok && nv.responseCfg.ok && nv.source.ok && nv.wipe.ok &&
  nv.deadStart.ok && nv.flow.ok && nv.retention.ok && nv.noteMask.ok

/-- The set of ranges (bit 17 the tail) whose stored record passes its check and shows ERASED (R138). -/
def State.storedErased (s : State) : BitVec 18 :=
  (List.finRange 17).foldl
    (fun b r => if s.cfs.nv.ranges[r].ok && s.cfs.nv.ranges[r].val.erased then b ||| (1#18 <<< r.val) else b)
    (if s.cfs.nv.tail.ok && s.cfs.nv.tail.val then 1#18 <<< 17 else 0)

end Sys2Proof.Machine
end

