-- ==== Sys2Proof/Machine/Ops.lean ====
section
/-! DEFINITION. The named operations that the commands share: tags, ports, slots and uses, staging and return buffer,
media lanes, segments, contexts and their aborts, locks and retained keys. -/

namespace Sys2Proof.Machine

/-! ### Tags (10.2) -/

/-- A front tag 0..31 read from its byte. -/
def frontTag (b : Byte) : Option (Fin 32) := if h : b.toNat < 32 then some ⟨b.toNat, h⟩ else none

/-- A media tag the bridge issues, 0..129, read from its byte. -/
def mediaTag (b : Byte) : Option (Fin 130) := if h : b.toNat < 130 then some ⟨b.toNat, h⟩ else none

/-- The byte of a front tag. -/
def frontByte (t : Fin 32) : Byte := BitVec.ofNat 8 t.val

/-- The byte of a media tag. -/
def mediaByte (m : Fin 130) : Byte := BitVec.ofNat 8 m.val

/-- Media tag 4 × front tag + segment index (R20). -/
def hostTag (t : Fin 32) (i : Nat) : Fin 130 := ⟨4 * t.val + i % 4, by omega⟩

/-- The sweep chunk's media tag. -/
def chunkTag : Fin 130 := 128

/-- The own IDENTIFY's media tag. -/
def ownTag : Fin 130 := 129

/-- The front tag and segment index that a host media tag belongs to (10.2). -/
def tagOwner (m : Fin 130) : Option (Fin 32 × Nat) :=
  if h : m.val < 128 then some (⟨m.val / 4, by omega⟩, m.val % 4) else none

/-! ### Ports (R163, R165) -/

/-- A frame handed to the FCP. -/
def State.sendFront (s : State) (f : Frame) : State :=
  { s with fcp.sendOrder := s.fcp.sendOrder ++ [⟨f, none⟩] }

/-- A frame handed to the MCP. -/
def State.sendMedia (s : State) (f : Frame) : State :=
  { s with mcp.sendOrder := s.mcp.sendOrder ++ [f] }

/-- A DATA frame of a front tag handed to the FCP with the tag's outbound bit, which then inverts (R167). `reply`
marks a held reply's frame (R165). -/
def State.sendFrontData (s : State) (t : Fin 32) (body : Sector) (reply : Option (BitVec 13)) : State :=
  { s with
    fcp.sendOrder := s.fcp.sendOrder ++ [⟨.data (frontByte t) s.fcp.seq[t].outbound body, reply⟩]
    fcp.seq := upd s.fcp.seq t fun q => { q with outbound := !q.outbound } }

/-- A frame has ended, and its port's framer is IDLE, or RECEIVING the next one (R163). -/
def State.framed (s : State) (p : Port) (after : Framer) : State :=
  match p with
  | .front => { s with fcp.framer := after }
  | .media => { s with mcp.framer := after }

/-- A frame that fails its checks: discarded, LINK_FAULT set (R163). -/
def State.frameFault (s : State) (p : Port) (after : Framer) : State := (s.framed p after).raise .linkFault

/-! ### Lanes (R56, R58, R72) -/

def State.modLane (s : State) (m : Fin 130) (f : Lane → Lane) : State :=
  { s with mcp.lanes := upd s.mcp.lanes m f }

/-- A media tag is quiescing (R58). -/
def State.quiescing (s : State) (m : Fin 130) : Bool := s.mcp.lanes[m].quiesce.isSome

/-- The media timer of a tag with an issued command starts again from 8,000 ms. A tag without one has no timer, also that of a
DRAINING segment (R56). -/
def State.restartTimer (s : State) (m : Fin 130) : State :=
  if s.mar.issued.contains m then s.modLane m fun l => { l with timer := some (s.clock + ms 8000) } else s

/-- A STAT or ABORT ends the media command of a tag, or it is given up: its credit, its reserved places and its timer end (R40, R56,
R72). It leaves the outstanding count unless its segment drains or the tag quiesces (R77). -/
def State.settleTag (s : State) (m : Fin 130) : State :=
  { s with mar.issued := s.mar.issued.erase m }.modLane m fun l => { l with credit := 0, reserved := 0, timer := none }

/-- ABORT sent down on a tag, which becomes quiescing; nothing where it already is (R58, R72). -/
def State.quiesce (s : State) (m : Fin 130) : State :=
  if s.quiescing m then s
  else ((s.settleTag m).modLane m fun l =>
    { l with quiesce := some (s.clock + ms 8000) }).sendMedia (.abort (mediaByte m))

/-- Read credit the media has left on a tag (R74). -/
def Lane.readCredit (l : Lane) : Nat := l.granted - l.received

/-- Free space of the return buffer (R40). -/
def State.freePlaces (s : State) : Nat :=
  8 - s.cph.held.length - (s.mcp.lanes.toList.map (·.reserved)).sum

/-! ### Slots and uses (R25, R27) -/

def State.modSlot (s : State) (i : Fin 18) (f : Slot → Slot) : State :=
  { s with cph.slots := upd s.cph.slots i f }

/-- The seal on last use (R27). -/
def State.sealIfDue (s : State) (i : Fin 18) : State :=
  if h : i.val < 17 then
    if s.rrs.ranges[i.val].lockedBoth ∧ s.cph.slots[i].uses = 0 ∧ s.cph.slots[i].isLive then
      s.modSlot i fun x => { x with key := .sealed }
    else s
  else s

/-- One use released (R25, R27). -/
def State.releaseUse (s : State) (i : Fin 18) : State :=
  (s.modSlot i fun x => { x with uses := x.uses - 1 }).sealIfDue i

/-- One use taken (R25). -/
def State.takeUse (s : State) (i : Fin 18) : State := s.modSlot i fun x => { x with uses := x.uses + 1 }

/-- The key a slot holds. -/
def State.slotKey (s : State) (i : Fin 18) : Option Key :=
  match s.cph.slots[i].key with | .live k => some k | _ => none

/-! ### Contexts and segments -/

def State.ctx (s : State) (t : Fin 32) : Option Context := s.cxm.contexts[t]

def State.setCtx (s : State) (t : Fin 32) (c : Option Context) : State :=
  { s with cxm.contexts := s.cxm.contexts.set t c }

def State.modCtx (s : State) (t : Fin 32) (f : Context → Context) : State :=
  s.setCtx t ((s.ctx t).map f)

def State.modSeg (s : State) (t : Fin 32) (i : Nat) (f : Segment → Segment) : State :=
  s.modCtx t fun c => { c with segs := c.segs.modify i f }

/-- A host media tag's context and segment. -/
def State.segAt (s : State) (m : Fin 130) : Option (Fin 32 × Nat × Context × Segment) :=
  match tagOwner m with
  | none => none
  | some (t, i) =>
    match s.ctx t with
    | none => none
    | some c => (c.segs[i]?).map fun g => (t, i, c, g)

/-- Sectors of a segment: its length, 1 for an IDENTIFY, 0 for a FLUSH or PASS (R45). -/
def Segment.len (g : Segment) (c : Context) : Nat :=
  match g.extent with
  | some e => e.len
  | none => if c.opcode = .identify then 1 else 0

/-- A segment's place in its command (R35). -/
def Segment.offset (g : Segment) (c : Context) : Nat :=
  match g.extent, c.start with
  | some e, some a => e.start - a
  | _, _ => 0

/-- A segment with a media command: MEDIA or forwarded (R45). -/
def Segment.onMedia (g : Segment) : Bool := g.treatment == some .media || g.treatment == none

/-- Sectors of a WRITE segment received from the front (R48). -/
def Segment.received (g : Segment) (c : Context) : Nat := min (g.len c) (c.done - g.offset c)

/-- A segment is settled (R45). -/
def Segment.settled (g : Segment) : Bool := g.phase == .done || g.phase == .failed

/-- The index of the segment that holds the sector at place `x` of its command (R35). -/
def Context.segIndex (c : Context) (x : Nat) : Option Nat :=
  c.segs.findIdx? fun g => decide (g.offset c ≤ x ∧ x < g.offset c + g.len c)

/-- The media tags of a context: those of its MEDIA and forwarded segments (R54; log 37). -/
def Context.mediaTags (c : Context) (t : Fin 32) : List (Fin 130) :=
  (List.range c.segs.length).filterMap fun i =>
    match c.segs[i]? with
    | some g => if g.onMedia then some (hostTag t i) else none
    | none => none

/-- Outstanding credit of a context: frames granted and not yet accepted (R70). -/
def Context.credit (c : Context) : Nat := (c.grants.map (·.missing)).sum

/-- The deadline: 2,000 ms after the issue of the oldest grant with frames missing (R59). -/
def Context.deadline (c : Context) : Option Nat := c.grants.head?.map fun g => g.issued + ms 2000

/-- The command of a media tag is not settled because its segment is DRAINING (R45, R72): in a context that is not in ABORTING, as an
abort takes a tag out of use that does not quiesce (R60 step 6), and on a tag that has not been through quiescing, the end of which
ends the command (R76, R77; DEDUCED for an acknowledged one, log 16). -/
def State.draining (s : State) (m : Fin 130) : Bool :=
  match s.segAt m with
  | some (_, _, c, g) => c.state != .aborting && g.phase == .draining && !s.mcp.lanes[m].quiesced
  | none => false

/-- A media tag is in use: its command is issued and no STAT or ABORT has ended it, or its segment drains, which settles only with
its last front sector, or it is quiescing (R45, R72). -/
def State.inUse (s : State) (m : Fin 130) : Bool := s.mar.issued.contains m || s.quiescing m || s.draining m

/-- The outstanding media commands: the tags in use, each once, as each carries a command that has not settled or is quiescing
(R72, R77; DEDUCED for a DRAINING segment's, log 16). -/
def State.outstanding (s : State) : Nat := ((List.finRange 130).filter s.inUse).length

/-- The use of a segment released, once (R25). -/
def State.releaseSeg (s : State) (t : Fin 32) (i : Nat) : State :=
  match s.ctx t with
  | none => s
  | some c =>
    match c.segs[i]? with
    | none => s
    | some g =>
      let s' := s.modSeg t i fun g => { g with uses := false }
      match g.uses, g.slot with
      | true, some k => s'.releaseUse k
      | _, _ => s'

/-- A status sent upstream, and the context FREE (R54, R60). -/
def State.endCtx (s : State) (t : Fin 32) : State :=
  match s.ctx t with
  | none => s
  | some c =>
    (s.sendFront (.stat (frontByte t) c.status.toByte (if c.status = .mediaError then c.code else 0))).setCtx t none

/-! ### Buffers (R40, R66, R67, R71) -/

/-- Hold turns off when a sector leaving brings occupancy to EWM or below (R67). -/
def State.afterLeaving (s : State) (before : Nat) : State :=
  if s.stg.hold ∧ s.stg.staged.length < before ∧ s.stg.staged.length ≤ s.flow.ewm then
    { s with stg.hold := false }
  else s

/-- The staged sectors of some tags discarded (R71). -/
def State.dropStaged (s : State) (p : Fin 130 → Bool) : State :=
  { s with stg.staged := s.stg.staged.filter fun x => !p x.tag }.afterLeaving s.stg.staged.length

/-- The held sectors of some tags discarded (R42, R43). -/
def State.dropHeld (s : State) (p : Fin 130 → Bool) : State :=
  { s with cph.held := s.cph.held.filter fun x => !p x.tag }

/-- A tag belongs to a front tag. -/
def tagOf (t : Fin 32) (m : Fin 130) : Bool := match tagOwner m with | some (u, _) => u == t | none => false

/-- GRANT frames for `n` sectors: 8 each and a last frame for the remainder (R42). -/
def grantFrames (m : Fin 130) (n : Nat) : List Frame :=
  List.replicate (n / 8) (.grant (mediaByte m) 8) ++
    (if n % 8 = 0 then [] else [.grant (mediaByte m) (BitVec.ofNat 16 (n % 8))])

/-- A segment becomes DISCARDING: all its ungranted sectors are granted at once, without reserving space (R42). -/
def State.startDiscarding (s : State) (t : Fin 32) (i n : Nat) : State :=
  let m := hostTag t i
  let left := n - s.mcp.lanes[m].granted
  { ((s.modSeg t i fun g => { g with phase := .discarding }).modLane m fun l => { l with granted := n }) with
    mcp.sendOrder := s.mcp.sendOrder ++ grantFrames m left }

/-! ### Failure of a segment (R42, R55, R56, R57) -/

/-- After a READ segment failed, each later segment: issued ones become DISCARDING; FILL has nothing left to send and
is DONE (R42, R55; log 17). The GRANT frames of several of them go in ascending order of segment, where R42 and R165 give no order
(DESIGN CHOICE, log 50). -/
def State.discardLater (s : State) (t : Fin 32) (i : Nat) : State :=
  (List.range 4).foldl
    (fun s j =>
      match s.ctx t with
      | none => s
      | some c =>
        match c.segs[j]? with
        | none => s
        | some g =>
          if j ≤ i then s
          else if g.phase = .issued then s.startDiscarding t j (g.len c)
          else if g.phase = .active then s.modSeg t j fun g => { g with phase := .done }
          else s) s

/-- A host segment whose media command failed (R42, R52, R55): its use is released, its credit and reservations end,
and its command's data is dealt with by opcode. The caller settles or quiesces its tag. A segment that drains keeps the error from
now on, for the status it takes when it is FAILED (R45; DESIGN CHOICE, log 68); a second failure, by an overrun or a media ABORT on
the tag of a DRAINING segment, replaces it by its own (R57, R75; DEDUCED, log 16). -/
def State.failSeg (s : State) (t : Fin 32) (i : Nat) (e : SegError) : State :=
  match s.ctx t with
  | none => s
  | some c =>
    match c.segs[i]? with
    | none => s
    | some g =>
      let m := hostTag t i
      let s := (s.releaseSeg t i).modLane m fun l => { l with credit := 0, reserved := 0 }
      let set (p : Phase) (s : State) : State := s.modSeg t i fun g => { g with phase := p, error := some e }
      if g.phase = .discarding then set .failed s
      else
        match c.opcode with
        | .write => set (if g.received c < g.len c then .draining else .failed) (s.dropStaged (· == m))
        | .read =>
          ((set .failed s).dropHeld fun n => match tagOwner n with
            | some (u, j) => u == t && decide (i ≤ j)
            | none => false).discardLater t i
        | .identify => (set .failed s).dropHeld (· == m)
        | _ => set .failed s

/-- A host segment settles without error (R55). -/
def State.finishSeg (s : State) (t : Fin 32) (i : Nat) : State :=
  ((s.releaseSeg t i).modSeg t i fun g => { g with phase := .done }).modLane (hostTag t i) fun l =>
    { l with reserved := 0 }

/-! ### The ready queue (R47, R48, R78) -/

/-- A segment handed to the Media Arbiter, or held in PENDING while its tag quiesces (R47). -/
def State.handOver (s : State) (t : Fin 32) (i : Nat) : State :=
  let m := hostTag t i
  if s.quiescing m then s
  else { (s.modSeg t i fun g => { g with phase := .queued }) with mar.ready := s.mar.ready ++ [m] }

/-- Every MEDIA or forwarded segment handed over, in ascending order (R47, R51). -/
def State.handOverAll (s : State) (t : Fin 32) : State :=
  (List.range 4).foldl
    (fun s i =>
      match (s.ctx t).bind fun c => c.segs[i]? with
      | some g => if g.onMedia && g.phase == .pending then s.handOver t i else s
      | none => s) s

/-! ### Reply discards (R175, R176, R182) -/

/-- A reply discarded undelivered: REPLY_DISCARDED is set, and the flags it took are set again (R182). -/
def State.discardReply (s : State) (taken : BitVec 13) : State := (s.raiseSet taken).raise .replyDiscarded

/-- The marked SEC_RECV is aborted or freed before its frame is handed over (R176). -/
def State.unmark (s : State) (t : Fin 32) : State :=
  if s.mgc.mark = some t then
    let s' := { s with mgc.mark := none }
    if s.mgc.channel = .replyReady then s'
    else
      match s.mgc.heldReply with
      | some r => { s' with mgc.heldReply := none }.discardReply r.taken
      | none => s'
  else s

/-! ### Aborts (R60) -/

/-- None of a context's media tags is quiescing (R54, R60). -/
def State.quiet (s : State) (t : Fin 32) (c : Context) : Bool := (c.mediaTags t).all fun m => !s.quiescing m

/-- A context in ABORTING with no quiescing tag is ended with its STAT (R60). -/
def State.endIfAborted (s : State) (t : Fin 32) : State :=
  match s.ctx t with
  | some c => if c.state = .aborting ∧ s.quiet t c then s.endCtx t else s
  | none => s

/-- What giving up a context does to its segments (R60 steps 2 to 4, R65): uses released, write credit dropped (R71, R72), queued
segments withdrawn, and the tags whose issued command has not settled aborted, in ascending order of segment (DESIGN CHOICE,
log 50). -/
def State.giveUpSegs (s : State) (t : Fin 32) : State :=
  (List.range 4).foldl
    (fun s i =>
      match (s.ctx t).bind fun c => c.segs[i]? with
      | none => s
      | some g =>
        let m := hostTag t i
        let s := { s.releaseSeg t i with mar.ready := s.mar.ready.erase m }.modLane m fun l => { l with credit := 0 }
        if s.mar.issued.contains m then s.quiesce m
        else if g.phase = .queued then s.modSeg t i fun g => { g with phase := .pending }
        else s) s

/-- A context in use is aborted (R60). One already in ABORTING keeps its status, but for a collision (R62). The context of a
SEC_SEND whose QUERY_STATUS has not been handled yet is freed like any other, and page 1 then shows it FREE (R180; DESIGN CHOICE,
log 5). -/
def State.abortCtx (s : State) (t : Fin 32) (st : FrontStatus) : State :=
  match s.ctx t with
  | none => s
  | some c =>
    if c.state = .aborting then
      if st = .protocol then s.modCtx t fun c => { c with status := .protocol } else s
    else
      let s := (s.giveUpSegs t).modCtx t fun c =>
        { c with status := st, state := .aborting, grants := [], ungranted := 0, record := none }
      let s := { s with stg.grantOrder := s.stg.grantOrder.erase t }
      (((s.dropStaged (tagOf t)).dropHeld (tagOf t)).unmark t).endIfAborted t

/-- Quiescing of a tag ends (R58): the mark goes, the command of the tag is over (R76, R77), a new segment that waited in PENDING is handed over (R47), and a
context in ABORTING whose last tag it was is ended (R60). -/
def State.endQuiesce (s : State) (m : Fin 130) : State :=
  let s := s.modLane m fun l => { l with quiesce := none, quiesced := true }
  match s.segAt m with
  | none => s
  | some (t, i, c, g) =>
    if c.state = .aborting then s.endIfAborted t
    else if g.phase = .pending ∧ (c.opcode ≠ .write ∨ s.stg.staged.any fun x => x.tag == m) then s.handOver t i
    else s

/-! ### Media timers (R56) -/

/-- A tag with an issued command is waiting on the bridge (R56, R73). -/
def State.waitsOnBridge (s : State) (m : Fin 130) : Bool :=
  let l := s.mcp.lanes[m]
  match s.segAt m with
  | some (_, _, c, g) =>
    if g.phase ≠ .issued then false
    else if c.opcode = .read ∨ c.opcode = .identify then decide (l.granted < g.len c) && l.reserved == 0
    else if c.opcode = .write then decide (0 < l.credit) && !(s.stg.staged.any fun x => x.tag == m)
    else false
  | none => m == ownTag && l.granted == 0

/-- One tag's timer: stopped while the tag waits on the bridge, started from 8,000 ms where it was stopped (R56). -/
def retimed (now : Nat) (waits : Bool) (l : Lane) : Lane :=
  { l with timer := if waits then none else some (l.timer.getD (now + ms 8000)) }

/-- The timers of the issued tags stop and start with their waits (R56). -/
def State.retime (s : State) : State :=
  s.mar.issued.foldl (fun s m => s.modLane m (retimed s.clock (s.waitsOnBridge m))) s

/-- What every command ends with: the store starts what it can (R187), the media timers follow their waits (R56). -/
def State.settle (s : State) : State := s.pump.retime

/-! ### Locks and retained keys (R5, R155, R156) -/

/-- The entry of a range leaves the retained list; an empty list has no key, and its timer stops (R151, R155). -/
def State.dropRetained (s : State) (r : Fin 17) : State :=
  let left := s.rtb.retained.filter fun e => e.range != r
  if s.rtb.retained.any (fun e => e.range == r) then
    if left.isEmpty then { s with rtb.retained := [], rtb.key := none, rtb.timer := .stopped }
    else { s with rtb.retained := left }
  else s

def setFlag17 (b : BitVec 17) (r : Fin 17) : BitVec 17 := b ||| (1#17 <<< r.val)

/-- What the Retention Block does when a lock event reaches a range while the bridge sleeps (R156). -/
def State.lockedAsleep (s : State) (r : Fin 17) (turnedOn : Bool) : State :=
  if s.rtb.sleep = .awake then s
  else
    let s := if turnedOn then { s with rtb.relocked := setFlag17 s.rtb.relocked r } else s
    if s.rrs.ranges[r].lockedBoth then s.dropRetained r else s

/-- A range locked in the directions asked, where enabled (R5), its slot sealed where due (R27). -/
def State.lockRange (s : State) (r : Fin 17) (rd wr : Bool) : State :=
  if s.isDefined r then
    let g := s.rrs.ranges[r]
    let g' := { g with
      readLocked := g.readLocked || (rd && g.cfg.policy.readEn)
      writeLocked := g.writeLocked || (wr && g.cfg.policy.writeEn) }
    (({ s with rrs.ranges := s.rrs.ranges.set r g' }.sealIfDue (rangeSlot r)).lockedAsleep r
      (g'.readLocked != g.readLocked || g'.writeLocked != g.writeLocked))
  else s

/-- Every range that satisfies `p` locked in both enabled directions. -/
def State.lockWhere (s : State) (p : Range → Bool) : State :=
  (List.finRange 17).foldl (fun s r => if p s.rrs.ranges[r] then s.lockRange r true true else s) s

/-! ### Envelopes (R84, R85) -/

/-- The envelope of an owner for a range. -/
def State.envelopeOf (s : State) (o : Owner) (r : Fin 18) : Option Envelope :=
  (s.aut.envelopes.toList.filterMap id).find? fun e => e.owner == o && e.range == r

/-- Opening a wrapped key with a secret (R85; log 8). -/
def Wrapped.opened (w : Wrapped) (x : Secret) : Option Key := if w.secret = x then some w.key else none

/-- The places of the envelopes that satisfy `p`. -/
def State.placesOf (s : State) (p : Envelope → Bool) : List (Fin 64) :=
  (List.finRange 64).filter fun i => match s.aut.envelopes[i] with | some e => p e | none => false

/-- The envelopes that satisfy `p` deleted from the volatile table. -/
def State.dropEnvelopes (s : State) (p : Envelope → Bool) : State :=
  { s with aut.envelopes := tab fun i => match s.aut.envelopes[i] with
      | some e => if p e then none else some e
      | none => none }

/-- Places of the Envelope Table that are empty. -/
def State.freeEnvelopes (s : State) : Nat :=
  (s.aut.envelopes.toList.filter fun e => e.isNone).length

/-- An envelope of an owner for a range. -/
def Envelope.isFor (e : Envelope) (o : Owner) (r : Fin 18) : Bool := e.owner == o && e.range == r

/-- What the store holds, or is writing, at a place of the table passes for an envelope that satisfies `p`. -/
def State.storedAt (s : State) (i : Fin 64) (p : Envelope → Bool) : Bool :=
  (s.cfs.nv.envelopes[i].ok && s.cfs.nv.envelopes[i].val.any p) ||
    s.cfs.writing.any fun w => match w.entry.record with
      | .envelope j e => j == i && e.any p
      | _ => false

/-- The place for an envelope of an owner and range: its present one; else an empty one where the store still holds an envelope
of that owner and range, so that the new one overwrites it and no loss of power between two store writes leaves both; else the
lowest that is empty in the table and in the store; else the lowest that is empty in the table (R84; DESIGN CHOICE, log 22). -/
def State.placeFor (s : State) (o : Owner) (r : Fin 18) : Option (Fin 64) :=
  match s.placesOf fun e => e.isFor o r with
  | p :: _ => some p
  | [] =>
    let empty := (List.finRange 64).filter fun i => s.aut.envelopes[i].isNone
    ((empty.find? fun i => s.storedAt i fun e => e.isFor o r).or
      (empty.find? fun i => !s.storedAt i fun _ => true)).or empty.head?

/-- An envelope created, and its place (R85). -/
def State.addEnvelope (s : State) (o : Owner) (r : Fin 18) (x : Secret) (k : Key) : State × List (Fin 64) :=
  match s.placeFor o r with
  | none => (s, [])
  | some p => ({ s with aut.envelopes := s.aut.envelopes.set p (some ⟨o, r, ⟨x, k⟩⟩) }, [p])

/-- A range's key recovered: from its LIVE slot, or from the ADMIN envelope with the verified ADMIN credential (R85). -/
def State.recoverKey (s : State) (r : Fin 18) (admin : Credential) : Option Key :=
  match s.slotKey r with
  | some k => some k
  | none => (s.envelopeOf (.authority 0) r).bind fun e => e.wrapped.opened (.credential admin)

/-- A fresh key drawn (R23). -/
def State.draw (s : State) : State × Key := ({ s with draws := s.draws + 1 }, Config.freshKey s.draws)

end Sys2Proof.Machine
end

