-- ==== Sys2Proof/Machine/Response.lean ====
section
/-! DEFINITION. The shared operations of the Response Controller (chapter 7), the Wipe Sequencer (chapter 8) and the
acceptance of a capacity (R1, R2, R92): erase orders, sources and the actions they start, the progress and end of a sweep. -/

namespace Sys2Proof.Machine

/-! ### Erase orders (R136 to R140) -/

/-- An erase order (R136). `list` holds bit i for range i and bit 17 for the tail. -/
structure Order where
  list : BitVec 18
  method : Method
  full : Bool
  origin : WipeOrigin
  deriving DecidableEq, Repr

/-- The erase set once an order has joined it: its ranges that the store does not yet show ERASED are added (R138; log 14). -/
def State.joinedEraseSet (s : State) (o : Order) : BitVec 18 :=
  s.wsq.wipe.eraseSet ||| (o.list &&& ~~~s.storedErased)

/-- The wipe record after an order was accepted (R139, R140). -/
def State.orderedWipe (s : State) (o : Order) : WipeRec :=
  let x := s.wsq.wipe
  let es := s.joinedEraseSet o
  match x.state, o.method with
  | .idle, _ | .done, _ =>
    { state := .erasing, scope := o.list, method := o.method, full := o.full, cursor := none, errors := 0
      eraseSet := es, outcome := none, origin := some o.origin }
  | .erasing, .eraseOnly | .sweeping, .eraseOnly => { x with eraseSet := es }
  | .erasing, _ =>
    { x with scope := o.list, method := o.method, full := o.full, origin := some o.origin, cursor := none
             errors := 0, eraseSet := es }
  | .sweeping, _ =>
    { x with scope := o.list, method := o.method, full := o.full, origin := some o.origin, cursor := some 0
             errors := 0, eraseSet := es }

/-- The context holds a segment attributed to a range, or a window segment for the tail (R64). -/
def Context.holds (c : Context) (i : Fin 18) : Bool := c.segs.any fun g => g.slot == some i

/-- Every segment that held a use of a slot is marked as having released it (R31). -/
def State.markReleased (s : State) (i : Fin 18) : State :=
  { s with cxm.contexts := tab fun t => (s.cxm.contexts[t]).map fun c =>
      { c with segs := c.segs.map fun g => if g.slot = some i then { g with uses := false } else g } }

/-- The erase state of a range or the tail set. -/
def State.setErased (s : State) (i : Fin 18) (b : Bool) : State :=
  if h : i.val < 17 then
    { s with rrs.ranges := upd s.rrs.ranges ⟨i.val, h⟩ fun g => { g with cfg := { g.cfg with erased := b } } }
  else { s with rrs.tailErased := b }

/-- Crypto-erase of one range or the tail (R31, R137, R156). The contexts it reaches are aborted in ascending order of front tag,
and so go their STAT and ABORT frames, which the spec gives no order (R64, R165; DESIGN CHOICE, log 50). -/
def State.cryptoErase (s : State) (i : Fin 18) : State :=
  let s := s.markReleased i
  let s := s.modSlot i fun x => if x.key = .absent then x else ⟨.destroyed, 0⟩
  let s := (s.dropEnvelopes fun e => e.range == i).setErased i true
  let s := (List.finRange 32).foldl
    (fun s t => match s.ctx t with
      | some c => if c.holds i then s.abortCtx t .erased else s
      | none => s) s
  if h : i.val < 17 then s.dropRetained ⟨i.val, h⟩ else s

/-- The members of a set of ranges and the tail, ascending. -/
def members (b : BitVec 18) : List (Fin 18) := (List.finRange 18).filter fun i => b.getLsbD i.val

/-- The record of a range or the tail. -/
def rangeRecord (i : Fin 18) : RecordId := if h : i.val < 17 then .range ⟨i.val, h⟩ else .tail

/-- What becomes of a chunk when an order restarts the sweep: a waiting one is replaced, an outstanding one no longer
counts (R140). -/
def State.restartChunks (s : State) (o : Order) : State :=
  if s.wsq.wipe.state = .sweeping ∧ o.method ≠ .eraseOnly then
    { s with
      mar.chunk := if s.mar.chunk.isSome then chunkAt (s.sweepPieces o.list) o.method 0 else none
      wsq.chunkStale := s.wsq.chunkOut.isSome }
  else s

/-- An erase order accepted by the Wipe Sequencer: its ranges are crypto-erased at once (R137), and writes 1 to 3 of
R138 are queued for the erase set and for the writers in `also`: write 2 in ascending order of envelope place, write 3 from range 0
up to the tail, orders that R138 leaves open (DESIGN CHOICE, log 66). One accepted fresh takes the record of a full sweep that had
finished out of the store's view (DESIGN CHOICE, log 48). -/
def State.eraseOrder (s : State) (o : Order) (also : List Writer) : State :=
  let places := s.placesOf fun e => o.list.getLsbD e.range.val
  let wipe := s.orderedWipe o
  let s := s.restartChunks o
  let fresh := s.wsq.wipe.state = .idle ∨ s.wsq.wipe.state = .done
  let s := { s with
    wsq.wipe := wipe
    wsq.eraseStage := .writing
    wsq.unfinished := if fresh then none else s.wsq.unfinished }
  let s := (members o.list).foldl State.cryptoErase s
  let ws := Writer.erase :: also
  ((s.queueRecord .wipe ws).queueRecords (places.map .envelope) ws).queueRecords ((members o.list).map rangeRecord) ws

/-! ### Sources and actions (R120 to R130) -/

/-- The effective action of a source (R123). -/
def State.effectiveOf (s : State) (i : Fin 6) : Option Action :=
  let level := s.rsp.cfg.map[i]
  if s.rsp.src.pending.getLsbD i.val && s.rsp.cfg.enables.getLsbD level.val && s.rsp.cfg.armed then
    some s.rsp.cfg.actions[level]
  else none

/-- The lock step (R124). -/
def State.lockStep (s : State) : State := s.lockWhere fun g => g.cfg.policy.anyLock

/-- Whether a done mark lets an action hand on its erase order (R125). -/
def mayErase : DoneMark → Action → Bool
  | .none, .cryptoErase | .none, .fullWipe | .cryptoErase, .fullWipe => true
  | _, _ => false

/-- The done mark an erase action leaves (R125). -/
def Action.doneMark : Action → DoneMark
  | .fullWipe => .fullWipe
  | .cryptoErase => .cryptoErase
  | _ => .none

/-- The erase order of an action (R124, R136). -/
def State.actionOrder (s : State) (a : Action) : Order :=
  { list := s.everything
    method := if a = .fullWipe then s.rsp.cfg.method else .eraseOnly
    full := a = .fullWipe
    origin := .response }

/-- An action started for a source (R124, R125). -/
def State.startAction (s : State) (i : Fin 6) (a : Action) : State :=
  if a = .note then s
  else
    let s := s.lockStep.raise .actionStarted
    if mayErase s.rsp.src.marks[i] a then
      let s := { s with rsp.src.marks := s.rsp.src.marks.set i a.doneMark }
      (s.queueRecord .source []).eraseOrder (s.actionOrder a) []
    else s

/-- The sources that an evaluation starts, with their actions (R123). -/
def State.starters (s : State) : List (Fin 6 × Action) :=
  (List.finRange 6).filterMap fun i =>
    match s.effectiveOf i with
    | some a => if s.rsp.effective[i] = some a then none else some (i, a)
    | none => none

/-- The effective actions evaluated again, and every newly effective action started (R123). -/
def State.evaluate (s : State) : State :=
  s.starters.foldl (fun s p => s.startAction p.1 p.2) { s with rsp.effective := tab s.effectiveOf }

/-- A source enters the pending set (R120), before its effective action is evaluated. -/
def State.latchOnly (s : State) (x : Source) : State :=
  if s.rsp.src.pending.getLsbD x.idx.val then s
  else
    ({ s with rsp.src :=
      ⟨s.rsp.src.pending ||| x.bit, s.rsp.src.marks.set x.idx .none⟩ }.raise .sourceLatched).queueRecord .source []

/-- A latch report (R120). A report of a pending source changes nothing. -/
def State.latch (s : State) (x : Source) : State :=
  if s.rsp.src.pending.getLsbD x.idx.val then s else (s.latchOnly x).evaluate

/-- A source cleared by the bridge (R121). -/
def State.clearSource (s : State) (x : Source) : State :=
  if s.rsp.src.pending.getLsbD x.idx.val then
    ({ s with rsp.src :=
      ⟨s.rsp.src.pending &&& ~~~x.bit, s.rsp.src.marks.set x.idx .none⟩ }.queueRecord .source []).evaluate
  else s

/-! ### The end of a sweep (R145, R146) -/

/-- An authority as a full wipe leaves it (R146). -/
def wipedAuthority (i : Fin 8) (a : Authority) : Authority :=
  if i = 0 then { a with state := if a.state = .blocked then .enabled else a.state, remaining := a.limit }
  else { a with state := .unset, verifier := none, grants := 0, remaining := a.limit }

/-- An envelope owned by a user or the ERASER. -/
def Envelope.ofUser (e : Envelope) : Bool := match e.owner with | .authority a => a != 0 | .device => false

/-- A request whose verify is in flight (R87, R90). -/
def Work.inVerify (w : Work) : Bool :=
  match w.stage with
  | .tentative | .verifying _ => true
  | _ => false

/-- The verify engine is in use (R87). -/
def State.engineInUse (s : State) : Bool := s.mgc.works.any Work.inVerify

/-- The completion effects of a full sweep (R146, R90), their writes queued before the DONE record. The source record of a
cleared ADMIN_BLOCKED is queued first, and the DONE record does not wait for it (DESIGN CHOICE, log 56). Then come the authority
records by ascending index and the envelope deletions by ascending place, orders that R146 leaves open (DESIGN CHOICE, log 66). -/
def State.fullWipeEffects (s : State) : State :=
  let places := s.placesOf Envelope.ofUser
  let s := { s with
    aut.authorities := tab fun i => wipedAuthority i s.aut.authorities[i]
    aut.throttle := tab fun _ => none
    mgc.works := s.mgc.works.map fun (w : Work) => if w.inVerify then { w with overtaken := true } else w }
  let s := (s.dropEnvelopes Envelope.ofUser).clearSource .adminBlocked
  (s.queueRecords ((List.finRange 8).map .authority) [.sweepEffects]).queueRecords (places.map .envelope) [.sweepEffects]

/-- The sweep is finished: DONE, with the completion effects of a full one (R145). `was` is the record as it stood before, which
the store keeps until the DONE record of a full sweep is queued. -/
def State.finishSweep (s : State) (was : WipeRec) : State :=
  let x := s.wsq.wipe
  let s := { s with wsq.wipe :=
    { x with state := .done, outcome := some (if x.errors = 0 then .complete else .incomplete) } }
  if x.full then { s with wsq.donePending := true, wsq.unfinished := some was }.fullWipeEffects
  else { s with wsq.unfinished := none }.queueRecord .wipe [.sweepDone]

/-- The chunk on tag 128 ends (R143, R144); the end of one that a restart left behind does not count (R140). -/
def State.endChunk (s : State) (err : Bool) : State :=
  match s.wsq.chunkOut, s.rrs.capacity with
  | some k, some c =>
    let stale := s.wsq.chunkStale
    let s := { s with wsq.chunkOut := none, wsq.chunkStale := false }
    if stale ∨ s.wsq.wipe.state ≠ .sweeping then s
    else
      let was := s.wsq.wipe
      let x := nextLba (s.sweepPieces was.scope) (k.first + k.len) c
      let s := { s with wsq.wipe :=
        { was with
          cursor := some x
          errors := if err then min 65535 (was.errors + 1) else was.errors } }
      if x = c then s.finishSweep was else s.queueRecord .wipe []
  | _, _ => { s with wsq.chunkOut := none, wsq.chunkStale := false }

/-- The closing write is reported (R138): the wipe record moves on, completed or failed, and a sweep with no LBAs is finished
(R145). ERASE_DONE is set only where the write completed (R138, R181, R188). Where C is accepted while the closing write is
outstanding, that write carries an absent cursor, and the cursor is set here, at its report; R138 does not say which moment counts
(DESIGN CHOICE, log 69). -/
def State.closeErase (s : State) (ok : Bool) : State :=
  let x := s.closingForm
  let s := { s with wsq.wipe := x, wsq.eraseStage := .none }
  let s := if ok then s.raise .eraseDone else s
  if x.state = .sweeping ∧ x.cursor.isSome ∧ x.cursor = s.rrs.capacity then s.finishSweep x else s

/-- The later writes of the Wipe Sequencer, queued once the earlier ones are reported (R138, R145, R189). An order accepted
between the end of a full sweep and its DONE record has the record queued as it then stands, and the report of that write
still sets SWEEP_DONE (DESIGN CHOICE, log 48). -/
def State.progressWipe (s : State) : State :=
  let s := if s.wsq.eraseStage = .writing ∧ !s.owes .erase then
      { s with wsq.eraseStage := .closing }.queueRecord .wipe [.closing]
    else s
  if s.wsq.donePending ∧ !s.owes .sweepEffects then
    { s with wsq.donePending := false, wsq.unfinished := none }.queueRecord .wipe [.sweepDone]
  else s

/-! ### The capacity (R1, R2, R92) -/

/-- k of an authority: limit minus tries remaining (R91). -/
def Authority.k (a : Authority) : Nat := a.limit - a.remaining

/-- The throttle delay for k in ms (R91). -/
def throttleDelay (k : Nat) : Nat := min 32000 (250 * 2 ^ (k - 1))

/-- The throttles of R92 begin. k counts the tentative decrement of a verify in flight, whose authority so gets a throttle too (DESIGN
CHOICE, log 65). -/
def State.startThrottles (s : State) : State :=
  { s with aut.throttle := tab fun i =>
      let a := s.aut.authorities[i]
      if a.state ≠ .blocked ∧ 1 ≤ a.k then some (s.clock + ms (throttleDelay a.k)) else s.aut.throttle[i] }

/-- The stored layout fits a capacity (R2). -/
def State.layoutFits (s : State) (o : Nat) : Bool :=
  decide (s.rrs.window.w < o) &&
    s.userExtents.all fun p => decide (p.2.start + p.2.len ≤ o - s.rrs.window.w)

/-- The sweep as the acceptance of C finds it (R138, R145, R147). A stored cursor that lies in no piece, as when a range
record failed its load, moves to the next piece part (DESIGN CHOICE, log 47). The cursor set here is not queued to the store until
a chunk's end or the sweep's end queues the record (DESIGN CHOICE, log 67). -/
def State.sweepAtCapacity (s : State) (c : Nat) : State :=
  if s.wsq.wipe.state = .sweeping then
    let was := s.wsq.wipe
    let x := nextLba (s.sweepPieces was.scope) (was.cursor.getD 0) c
    let s := { s with wsq.wipe := { was with cursor := some x } }
    if c ≤ x then s.finishSweep was else s
  else s

/-- The offered capacity is accepted as C if the layout fits it (R2). -/
def State.tryAccept (s : State) : State :=
  match s.rrs.capacity, s.rrs.offered with
  | none, some o =>
    if s.layoutFits o then { s with rrs.capacity := some o }.sweepAtCapacity o else s
  | _, _ => s

/-- A well-formed capacity is obtained (R2, R92). -/
def State.offer (s : State) (o : Nat) : State :=
  { s with rrs.offered := some o }.startThrottles.tryAccept

/-- The own IDENTIFY failed (R1): MEDIA_FAULT, its record forgotten, and it is queued again. -/
def State.failOwnIdentify (s : State) : State :=
  { s.raise .mediaFault with rrs.ownRecord := none, mar.identify := true }

end Sys2Proof.Machine
end

