-- ==== Sys2Proof/Machine/Operands.lean ====
section
/-! DEFINITION. The operand forms of the management requests: request codes, classes and body sizes (R178, 10.6), the
fields of a body, and the values the owning rules refuse before admission. -/

namespace Sys2Proof.Machine

/-- The requests of the catalogue (11.2). -/
inductive ReqKind where
  | queryStatus | readEvents | setNoteMask | unlock | lock | bootDone | setAuthority | setCredential
  | resetAuthority | setDeadstart | defineRanges | modifyPolicy | setBootWindow | bootImageWrite
  | measureBay | enrollBay | setBindPolicy | setResponse | ackSources | wipe | rekey | setFlow | setRetention
  deriving DecidableEq, Repr

def ReqKind.all : List ReqKind :=
  [.queryStatus, .readEvents, .setNoteMask, .unlock, .lock, .bootDone, .setAuthority, .setCredential,
   .resetAuthority, .setDeadstart, .defineRanges, .modifyPolicy, .setBootWindow, .bootImageWrite,
   .measureBay, .enrollBay, .setBindPolicy, .setResponse, .ackSources, .wipe, .rekey, .setFlow, .setRetention]

/-- Request codes (10.6). -/
def ReqKind.code : ReqKind → Byte
  | .queryStatus => 0x01 | .readEvents => 0x02 | .setNoteMask => 0x03
  | .unlock => 0x10 | .lock => 0x11 | .bootDone => 0x12 | .setAuthority => 0x13 | .setCredential => 0x14
  | .resetAuthority => 0x15 | .setDeadstart => 0x16
  | .defineRanges => 0x20 | .modifyPolicy => 0x21 | .setBootWindow => 0x22 | .bootImageWrite => 0x23
  | .measureBay => 0x30 | .enrollBay => 0x31 | .setBindPolicy => 0x32
  | .setResponse => 0x40 | .ackSources => 0x41 | .wipe => 0x50 | .rekey => 0x51
  | .setFlow => 0x60 | .setRetention => 0x61

def ReqKind.ofByte (b : Byte) : Option ReqKind := ReqKind.all.find? fun k => k.code == b

/-- The body size a request's layout needs (10.6, R178). -/
def ReqKind.size : ReqKind → Nat
  | .queryStatus => 1 | .readEvents => 0 | .setNoteMask => 6
  | .unlock => 5 | .lock => 4 | .bootDone => 0 | .setAuthority => 39 | .setCredential => 33
  | .resetAuthority => 1 | .setDeadstart => 1
  | .defineRanges => 224 | .modifyPolicy => 6 | .setBootWindow => 4 | .bootImageWrite => 1
  | .measureBay => 2 | .enrollBay => 1 | .setBindPolicy => 2
  | .setResponse => 13 | .ackSources => 1 | .wipe => 4 | .rekey => 1
  | .setFlow => 3 | .setRetention => 1

/-- The authorization classes (11.2). -/
inductive AuthClass where
  | none | any | admin | adminOrEraser
  deriving DecidableEq, Repr

/-- The `n`-byte field at offset `o` of a request's body (10.6). -/
def Request.num (q : Request) (o n : Nat) : Nat := sectorField q.bytes (36 + o) n

/-- A 3-byte set field as a set of ranges and the tail; bits above 17 are tested apart. -/
def Request.set (q : Request) (o : Nat) : BitVec 18 := BitVec.ofNat 18 (q.num o 3)

/-- The class of a request (table of 11.2); for SET_CREDENTIAL it follows from the target (R99, R178). -/
def ReqKind.cls (k : ReqKind) (q : Request) : AuthClass :=
  match k with
  | .queryStatus | .readEvents | .lock => .none
  | .unlock | .bootDone | .measureBay => .any
  | .wipe => .adminOrEraser
  | .setCredential => if q.num 0 1 = q.auth.toNat then .any else .admin
  | .setNoteMask | .setAuthority | .resetAuthority | .setDeadstart | .defineRanges | .modifyPolicy | .setBootWindow
  | .bootImageWrite | .enrollBay | .setBindPolicy | .setResponse | .ackSources | .rekey | .setFlow | .setRetention => .admin

/-- The named authority belongs to a class (11.2). -/
def AuthClass.holds (c : AuthClass) (auth : Byte) : Bool :=
  match c with
  | .none => true
  | .any => decide (auth.toNat ≤ 7)
  | .admin => auth == 0
  | .adminOrEraser => auth == 0 || auth == 7

/-- The requests that open or wrap keys with the presented credential once they are verified (R8, R10, R14, R85, R94, R98,
R99, R150). -/
def ReqKind.opensEnvelopes : ReqKind → Bool
  | .unlock | .setAuthority | .setCredential | .defineRanges | .modifyPolicy | .setBootWindow | .rekey => true
  | .queryStatus | .readEvents | .setNoteMask | .lock | .bootDone | .resetAuthority | .setDeadstart | .bootImageWrite
  | .measureBay | .enrollBay | .setBindPolicy | .setResponse | .ackSources | .wipe | .setFlow | .setRetention => false

/-- The request's owning block needs its credential. -/
def Request.opensEnvelopes (q : Request) : Bool := (ReqKind.ofByte q.code).any ReqKind.opensEnvelopes

/-- The named authority of a request. -/
def Request.authority (q : Request) : Fin 8 := ⟨q.auth.toNat % 8, Nat.mod_lt _ (by decide)⟩

/-- An authority index read from a byte of the body. -/
def Request.target (q : Request) : Fin 8 := ⟨q.num 0 1 % 8, Nat.mod_lt _ (by decide)⟩

/-- The states SET_AUTHORITY can ask for (R97). -/
def Request.askedState (q : Request) : AuthState :=
  if q.num 1 1 = 0 then .unset else if q.num 1 1 = 1 then .enabled else .disabled

/-- The grants of SET_AUTHORITY. -/
def Request.grants (q : Request) : BitVec 17 := BitVec.ofNat 17 (q.num 3 3)

/-- The new credential of SET_AUTHORITY, if one is given. -/
def Request.newCredential (q : Request) : Option Credential :=
  if q.num 6 1 = 1 then some (BitVec.ofNat 256 (q.num 7 32)) else none

/-- A policy byte (10.6). -/
def Policy.ofBits (b : BitVec 8) : Policy :=
  ⟨b.getLsbD 0, b.getLsbD 1, b.getLsbD 2, b.getLsbD 3, b.getLsbD 4⟩

def bitNat (b : Bool) (i : Nat) : Nat := if b then 2 ^ i else 0

/-- The byte of a policy (10.6). -/
def Policy.toBits (p : Policy) : BitVec 8 :=
  BitVec.ofNat 8 (bitNat p.readEn 0 + bitNat p.writeEn 1 + bitNat p.conceal 2 + bitNat p.hold 3 + bitNat p.relock 4)

/-- An entry of DEFINE_RANGES: its extent if defined, and its policy (R7). -/
structure DefEntry where
  extent : Option Extent
  policy : Policy
  deriving DecidableEq, Repr

/-- The entry for range `r` = 1..16 (R7, 10.6). -/
def Request.entry (q : Request) (r : Fin 17) : DefEntry :=
  let o := 14 * (r.val - 1)
  { extent := if q.num o 1 = 1 then some ⟨q.num (o + 1) 6, q.num (o + 7) 6⟩ else none
    policy := Policy.ofBits (BitVec.ofNat 8 (q.num (o + 13) 1)) }

def Setting.ofCode (n : Nat) : Setting :=
  if n = 0 then .fine else if n = 1 then .standard else if n = 2 then .quick else .coarse

def Setting.code : Setting → Nat
  | .fine => 0 | .standard => 1 | .quick => 2 | .coarse => 3

def BindPolicy.ofCode (n : Nat) : BindPolicy := if n = 0 then .off else if n = 1 then .warn else .strict

def Action.ofCode (n : Nat) : Action :=
  if n = 0 then .note else if n = 1 then .lockAll else if n = 2 then .concealAll
  else if n = 3 then .cryptoErase else .fullWipe

def Method.ofCode (n : Nat) : Method := if n = 0 then .eraseOnly else if n = 1 then .overwrite else .release

/-- The configuration that SET_RESPONSE carries (R132, 10.6). -/
def Request.response (q : Request) : ResponseCfg :=
  { map := tab fun i => ⟨q.num i.val 1 % 4, Nat.mod_lt _ (by decide)⟩
    actions := tab fun l => Action.ofCode (q.num (6 + l.val) 1)
    enables := BitVec.ofNat 4 (q.num 10 1)
    armed := q.num 11 1 = 1
    method := Method.ofCode (q.num 12 1) }

/-- A direction field names READ, WRITE or BOTH (R93, 10.6). -/
def dirReads (n : Nat) : Bool := n == 0 || n == 2
def dirWrites (n : Nat) : Bool := n == 1 || n == 2

/-- A field of the body holds a value that the owning rule, or 10.6, refuses before admission (R178 step 5). -/
def State.badFields (s : State) (k : ReqKind) (q : Request) : Bool :=
  match k with
  | .readEvents | .bootDone => false
  | .queryStatus => decide (3 < q.num 0 1)
  | .setNoteMask => decide (0x1FFF < q.num 0 2) || decide (0x1FFF < q.num 2 2) || decide (0x1FFF < q.num 4 2)
  | .unlock => decide (2 ^ 17 ≤ q.num 0 3) || decide (2 < q.num 3 1) || decide (1 < q.num 4 1)
  | .lock => decide (2 ^ 17 ≤ q.num 0 3) || decide (2 < q.num 3 1)
  | .setAuthority =>
    let t := q.num 0 1
    let a := s.aut.authorities[q.target]
    t == 0 || decide (7 < t) || decide (2 < q.num 1 1) || q.num 2 1 == 0 || decide (15 < q.num 2 1) ||
    decide (2 ^ 17 ≤ q.num 3 3) || (t == 7 && q.num 3 3 != 0) || decide (1 < q.num 6 1) ||
    (a.state == .unset && q.askedState != .unset && q.newCredential.isNone) ||
    (a.state == .blocked && q.askedState != .unset)
  | .setCredential =>
    decide (7 < q.num 0 1) ||
    (q.num 0 1 != q.auth.toNat && s.aut.authorities[q.target].state == .unset)
  | .resetAuthority => q.num 0 1 == 0 || decide (7 < q.num 0 1)
  | .setDeadstart => decide (250 < q.num 0 1)
  | .defineRanges =>
    (List.range 16).any fun i => decide (1 < q.num (14 * i) 1) || decide (31 < q.num (14 * i + 13) 1)
  | .modifyPolicy =>
    decide (2 ^ 17 ≤ q.num 0 3) || decide (31 < q.num 3 1) || decide (31 < q.num 4 1) || decide (31 < q.num 5 1)
  | .setBootWindow => decide (1 < q.num 3 1)
  | .bootImageWrite => decide (1 < q.num 0 1)
  | .measureBay => decide (1 < q.num 0 1) || decide (3 < q.num 1 1)
  | .enrollBay => decide (q.num 0 1 < 5) || decide (200 < q.num 0 1)
  | .setBindPolicy => decide (2 < q.num 0 1) || decide (3 < q.num 1 1)
  | .setResponse =>
    (List.range 6).any (fun i => decide (3 < q.num i 1)) || (List.range 4).any (fun l => decide (4 < q.num (6 + l) 1)) ||
    decide (15 < q.num 10 1) || decide (1 < q.num 11 1) || (q.num 12 1 != 1 && q.num 12 1 != 2)
  | .ackSources => decide (63 < q.num 0 1)
  | .wipe => q.num 0 3 == 0 || decide (2 ^ 18 ≤ q.num 0 3) || decide (2 < q.num 3 1)
  | .rekey => decide (17 < q.num 0 1)
  | .setFlow =>
    q.num 0 1 == 0 || decide (64 < q.num 0 1) || q.num 1 1 == 0 || decide (64 < q.num 1 1) ||
    decide (q.num 0 1 ≤ q.num 1 1) || q.num 2 1 == 0 || decide (15 < q.num 2 1)
  | .setRetention => q.num 0 1 == 0 || decide (240 < q.num 0 1)

end Sys2Proof.Machine
end

