-- ==== Sys2Proof/Machine/Replies.lean ====
section
/-! DEFINITION. Reply records (R179, 10.6), and the operations on the requests being worked: which one its owning block
takes, how its reply is formed, and its later store writes (R189). -/

namespace Sys2Proof.Machine

/-! ### Reply records -/

def Outcome.toByte : Outcome → Byte
  | .done => 0x00 | .defer => 0x01 | .refused => 0x02 | .halted => 0x03 | .noRequest => 0x04 | .pending => 0x05

def Reason.toByte : Reason → Byte
  | .none => 0x00 | .badRequest => 0x01 | .denied => 0x02 | .notPermitted => 0x03 | .lockdown => 0x04
  | .bayMismatch => 0x05 | .tableFull => 0x06 | .wiping => 0x07 | .busy => 0x08 | .storeFault => 0x09

/-- The 512 bytes of a reply record (10.6). -/
def Reply.sector (r : Reply) : Sector :=
  sectorOfBytes ([r.outcome.toByte, r.reason.toByte] ++ be 2 r.retryAfter ++ [r.code] ++ be 2 r.body.length ++ r.body)

def Reply.done (q : Request) (body : List Byte) : Reply := ⟨.done, .none, 0, q.code, body, 0⟩

def Reply.refused (q : Request) (why : Reason) (body : List Byte) : Reply := ⟨.refused, why, 0, q.code, body, 0⟩

/-- A DEFER reply with its retry-after in ms. -/
def Reply.defer (q : Request) (after : Nat) : Reply := ⟨.defer, .none, after, q.code, [], 0⟩

def Reply.halted (q : Request) : Reply := ⟨.halted, .none, 0, q.code, [], 0⟩

/-- The records made fresh for an ask (R176). -/
def Reply.noRequest : Reply := ⟨.noRequest, .none, 0, 0, [], 0⟩
def Reply.pending : Reply := ⟨.pending, .none, 0, 0, [], 0⟩

/-- The reply of a request that formed DONE but had a store write fail (R189; log 23). -/
def Reply.storeFaulted (r : Reply) : Reply := { r with outcome := .refused, reason := .storeFault, body := [] }

/-! ### Works -/

def State.modWork (s : State) (id : Nat) (f : Work → Work) : State :=
  { s with mgc.works := s.mgc.works.map fun w => if w.id = id then f w else w }

def State.work (s : State) (id : Nat) : Option Work := s.mgc.works.find? fun w => w.id == id

/-- The credential a work still holds; the zero word where it has been erased (R178). -/
def Work.credential (w : Work) : Credential := w.cred.getD 0

/-- The reply of a request is formed, and its credential erased (R178, R179). -/
def State.finish (s : State) (id : Nat) (r : Reply) : State :=
  s.modWork id fun w => { w with stage := .finishing r, cred := none }

/-- A request changes the record of its target. -/
def Request.changesRecord (q : Request) : Bool :=
  q.code == ReqKind.setAuthority.code || q.code == ReqKind.setCredential.code || q.code == ReqKind.resetAuthority.code

/-- A request that would change an authority's record while a verify for that authority is in flight; only a detached request
can (R90). One whose own verify is over is not held by the changes of others, and goes on with the credential it verified with
(DESIGN CHOICE, log 59). -/
def State.heldByVerify (s : State) (w : Work) : Bool :=
  w.req.changesRecord && s.mgc.works.any fun v => v.inVerify && v.req.authority == w.req.target

/-- The oldest request of a kind that has reached its owning block; none is served while the bridge sleeps (9.1; log 3), and
none changes an authority's record while that authority is verified: it waits for the verify's end (R90; DESIGN CHOICE, log 3). -/
def State.readyFor (s : State) (k : ReqKind) : Option Work :=
  if s.rtb.sleep = .awake then
    s.mgc.works.find? fun w => w.stage == .ready && w.req.code == k.code && !s.heldByVerify w
  else none

/-- What an owning block does with the oldest request of a kind that has reached it; nothing where there is none. -/
def State.handle (s : State) (k : ReqKind) (f : State → Work → State) : State :=
  match s.readyFor k with
  | none => s
  | some w => (f s w).settle

/-- One write of a request taken by the store queue. -/
def State.startWrite (s : State) (id : Nat) : Write → State
  | .cur i => s.queueRecord i [.request id]
  | .val r => s.queueWrite r [.request id]

/-- The writes of one phase of a request taken by the store queue, in order. -/
def State.startPhase (s : State) (id : Nat) (ws : List Write) : State := ws.foldl (fun s w => s.startWrite id w) s

/-- A request's writes in their phases: the first is queued now, each later one when every earlier one has been reported
(R189). -/
def State.persist (s : State) (id : Nat) (phases : List (List Write)) : State :=
  match phases.filter fun p => !p.isEmpty with
  | [] => s
  | p :: ps => (s.startPhase id p).modWork id fun w => { w with later := ps }

/-- The next phase of one request, if nothing of it is owed. -/
def State.nextPhase (s : State) (w : Work) : State :=
  match w.later with
  | [] => s
  | p :: ps => if s.owes (.request w.id) then s else (s.startPhase w.id p).modWork w.id fun w => { w with later := ps }

/-- The next phases of all requests (R189). -/
def State.nextPhases (s : State) : State := s.mgc.works.foldl State.nextPhase s

/-- The reply's 3-byte set field (10.6). -/
def setBytes {n : Nat} (b : BitVec n) : List Byte := be 3 b.toNat

/-- Set bit `i` of a set of ranges and the tail. -/
def mark18 (b : BitVec 18) (i : Nat) : BitVec 18 := b ||| (1#18 <<< i)

/-! ### Delivery (R176, R179, R182) -/

/-- The reply of a finishing request can be held, or dropped if the request is detached (R177, R179). -/
def State.releasable (s : State) (w : Work) : Bool :=
  match w.stage with
  | .finishing _ =>
    w.later.isEmpty && !s.owes (.request w.id) && (w.detached || !(s.mgc.mark.isSome && s.mgc.heldReply.isSome))
  | _ => false

/-- The wipe state in a WIPE's DONE body is the one at release (R149). -/
def State.atRelease (s : State) (r : Reply) : Reply :=
  if r.code = ReqKind.wipe.code ∧ r.outcome = .done then
    { r with body := r.body.take 6 ++ [match s.wsq.wipe.state with
      | .idle => 0 | .erasing => 1 | .sweeping => 2 | .done => 3] }
  else r

/-- The reply a finishing request releases (R149, R189). -/
def State.releasedReply (s : State) (w : Work) (r : Reply) : Reply :=
  if w.storeFailed ∧ r.outcome = .done then r.storeFaulted else s.atRelease r

/-- A request leaves the channel: its reply is held, or, where the request is detached, dropped with its flags set again (R177, R179,
R182; DESIGN CHOICE, log 64, for a reply formed before the link reset). -/
def State.release (s : State) (w : Work) (r : Reply) : State :=
  let s' := { s with mgc.works := s.mgc.works.filter fun v => v.id != w.id }
  if w.detached then s'.raiseSet r.taken
  else { s' with mgc.heldReply := some (s.releasedReply w r), mgc.channel := .replyReady }

/-- REPLY_READY (R179): the oldest request whose reply can be released releases it. -/
def execReplyReady (s : State) : Host.Outcome State Fault Refusal :=
  match s.mgc.works.find? s.releasable with
  | some w =>
    match w.stage with
    | .finishing r => .next (s.release w r).settle
    | _ => .next s
  | none => .next s

end Sys2Proof.Machine
end

