-- ==== Sys2Proof/Machine/Requests.lean ====
section
/-! DEFINITION. The intake of a request record (R175), its examination (R178), its admission (R86, R93) and its verify
(R87 to R91). -/

namespace Sys2Proof.Machine

/-! ### The record (10.6) -/

/-- A request record read from a data sector: the credential apart, its bytes zero in the kept record (R178). -/
def requestOf (x : Sector) : Request × Credential :=
  ({ code := sectorByte x 0
     auth := sectorByte x 1
     bodyLen := sectorField x 34 2
     bytes := sectorPatch x 2 (List.replicate 32 0) },
   BitVec.ofNat 256 (sectorField x 2 32))

/-! ### Examination (R178) -/

/-- Steps 2 to 5 of R178 for a known code: the reason that stops the request. -/
def State.formFault (s : State) (k : ReqKind) (q : Request) : Option Reason :=
  let c := k.cls q
  if 476 < q.bodyLen ∨ q.bodyLen < k.size then some .badRequest
  else if c ≠ .none ∧ 7 < q.auth.toNat ∧ q.auth ≠ 0xFF then some .badRequest
  else if !c.holds q.auth then some .notPermitted
  else if s.badFields k q then some .badRequest
  else none

/-! ### Admission (R86, R91 to R93) -/

/-- The named authority of a request, from the table. -/
def State.named (s : State) (q : Request) : Authority := s.aut.authorities[q.authority]

/-- The gates of UNLOCK (R93). -/
def State.unlockGate (s : State) (q : Request) : Option Reply :=
  let user := q.authority != 0
  let badBay := match s.bsc.lastBay with
    | some r => r.cls == .mismatch || r.cls == .openBay || r.cls == .short || r.cls == .fault
    | none => false
  if user && s.lockdown then some (.refused q .lockdown [])
  else if s.bsc.record.policy != .off && s.bsc.awaiting then some (.defer q 100)
  else if user && s.bsc.record.policy == .strict && badBay then some (.refused q .bayMismatch [])
  else none

/-- Milliseconds left until a time, rounded up (R91). -/
def State.msLeft (s : State) (t : Nat) : Nat := (t - s.clock + (msUnits - 1)) / msUnits

/-- The retry-after of the throttle step: the full delay before any capacity was offered (R92), else the ms left until
the throttle time (R91); none where the step is passed. A verify that fails before that sets its throttle time (R91), which the
status page shows, and the full delay is answered all the same (DESIGN CHOICE, log 54); so it is for an authority whose tries are
lowered by a verify in flight only (DESIGN CHOICE, log 65). -/
def State.throttled (s : State) (i : Fin 8) : Option Nat :=
  let a := s.aut.authorities[i]
  if s.rrs.offered.isNone ∧ 1 ≤ a.k then some (throttleDelay a.k)
  else
    match s.aut.throttle[i] with
    | some t => if s.clock < t then some (max 1 (s.msLeft t)) else none
    | none => none

/-- Admission: the reply of the first step that stops the request (R86). -/
def State.stopped (s : State) (k : ReqKind) (q : Request) : Option Reply :=
  let a := s.named q
  if a.state = .unset ∨ a.state = .disabled then some (.refused q .notPermitted [])
  else if a.state = .blocked then some (.halted q)
  else
    match (if k = .unlock then s.unlockGate q else none) with
    | some r => some r
    | none =>
      match s.throttled q.authority with
      | some n => some (.defer q n)
      | none => if s.engineInUse then some (.defer q 100) else none

/-- The tentative decrement (R87): the volatile state stays ENABLED, the write carries BLOCKED at 0. -/
def State.tentative (s : State) (id : Nat) (i : Fin 8) : State :=
  let a := s.aut.authorities[i]
  let s : State := { s with
    aut.authorities := s.aut.authorities.set i { a with remaining := a.remaining - 1 }
    aut.throttle := s.aut.throttle.set i none }
  (s.modWork id fun w => { w with stage := .tentative }).queueRecord (.authority i) [.request id]

/-! ### Intake (R175, R178) -/

/-- A held request examined, and admitted where its class asks for it. -/
def State.examine (s : State) (id : Nat) (q : Request) : State :=
  let toOwner (s : State) : State := s.modWork id fun w => { w with stage := .ready, cred := none }
  match ReqKind.ofByte q.code with
  | none => s.finish id (.refused q .badRequest [])
  | some k =>
    match s.formFault k q with
    | some why => s.finish id (.refused q why [])
    | none =>
      if k.cls q = .none then toOwner s
      else
        match s.stopped k q with
        | some r => s.finish id r
        | none => s.tentative id q.authority

/-- The record of a SEC_SEND handed to the Management Channel (R175), with the status of its front STAT. -/
def State.takeRequest (s : State) (t : Fin 32) (x : Sector) : State × FrontStatus :=
  if s.mgc.channel = .working then (s, .busy)
  else
    let s := if s.mgc.channel = .replyReady ∧ s.mgc.mark.isNone then
        match s.mgc.heldReply with
        | some r => { s with mgc.heldReply := none }.discardReply r.taken
        | none => s
      else s
    let q := requestOf x
    let id := s.mgc.nextId
    let w : Work :=
      { id := id, req := q.1, cred := some q.2, carrier := t, detached := false, overtaken := false
        storeFailed := false, stage := .ready, later := [] }
    let s := { s with mgc.channel := .working, mgc.works := s.mgc.works ++ [w], mgc.nextId := id + 1 }
    (s.examine id q.1, .good)

/-! ### The verify (R87 to R91, R128) -/

/-- VERIFY_START (R87): the verify starts when the tentative write has been reported. -/
def execVerifyStart (s : State) : Host.Outcome State Fault Refusal :=
  match s.mgc.works.find? fun w => w.stage == .tentative && !s.owes (.request w.id) with
  | none => .next s
  | some w => .next (s.modWork w.id fun w => { w with stage := .verifying (s.clock + ms 80) }).settle

/-- The presented credential verifies against the stored verifier (R82). -/
def verifies (c : Option Credential) (a : Authority) : Bool :=
  match c, a.verifier with
  | some c, some v => decide (Config.verifierOf c = v)
  | _, _ => false

/-- A verify that ended in success (R88), with the second lockdown test of UNLOCK (R128). The credential is erased but for a
request whose owning block still opens or wraps keys with it (R178; log 9). The source record of a DEADMAN cleared is queued before
the authority and dead-start records, an order that R88 and R121 leave open (DESIGN CHOICE, log 63). -/
def State.verifySuccess (s : State) (w : Work) : State :=
  let i := w.req.authority
  let a := s.aut.authorities[i]
  let stepped := s.aut.dead.count != 0
  let s : State := { s with
    aut.authorities := s.aut.authorities.set i { a with remaining := a.limit }
    aut.throttle := s.aut.throttle.set i none
    aut.dead.count := 0 }
  let s := s.clearSource .deadman
  let s : State := s.queueRecord (.authority i) [.request w.id]
  let s : State := if stepped then s.queueRecord .deadStart [.request w.id] else s
  if w.req.code = ReqKind.unlock.code ∧ i ≠ 0 ∧ s.lockdown then s.finish w.id (.refused w.req .lockdown [])
  else
    s.modWork w.id fun w => { w with stage := .ready, cred := if w.req.opensEnvelopes then w.cred else none }

/-- A verify that ended in failure (R89, R91). -/
def State.verifyFailure (s : State) (w : Work) : State :=
  let i := w.req.authority
  let a := s.aut.authorities[i]
  if 0 < a.remaining then
    { s with aut.throttle := s.aut.throttle.set i (some (s.clock + ms (throttleDelay a.k))) }.finish w.id
      (.refused w.req .denied [])
  else
    (({ s with aut.authorities := s.aut.authorities.set i { a with state := .blocked } }.raise .authBlocked).latch
      (if i = 0 then .adminBlocked else .nonadminBlocked)).finish w.id (.halted w.req)

/-- The end of a verify, a full wipe that completed meanwhile included (R90). -/
def State.endVerify (s : State) (w : Work) : State :=
  let i := w.req.authority
  let good := verifies w.cred s.aut.authorities[i]
  if w.overtaken ∧ i ≠ 0 then s.finish w.id (.refused w.req .notPermitted [])
  else if good then s.verifySuccess w
  else if w.overtaken then s.finish w.id (.refused w.req .denied [])
  else s.verifyFailure w

/-- A work whose verify is running, with the time it ends. -/
def Work.verifyTill (w : Work) : Option Nat := match w.stage with | .verifying t => some t | _ => none

/-- VERIFY_END (R88): the running verify ends, 80 ms after its start. -/
def execVerifyEnd (s : State) : Host.Outcome State Fault Refusal :=
  match s.mgc.works.find? fun w => w.verifyTill.isSome with
  | none => .next s
  | some w => .next ((s.advance (w.verifyTill.getD 0)).endVerify w).settle

end Sys2Proof.Machine
end

