-- ==== Sys2Proof/Machine/FrontCommands.lean ====
section
/-! DEFINITION. The front command frames (R46 to R53, R60 to R62), frames that fail their checks (R163) and the sending of
frames (R165). -/

namespace Sys2Proof.Machine

/-- A context record as a CMD fills it (R46). -/
def Context.fresh (op : Opcode) : Context :=
  { opcode := op, start := none, count := none, segs := [], done := 0, state := .resolving, status := .good, code := 0
    ungranted := 0, grants := [], passed := none, record := none }

/-- The forwarded segment of a FLUSH, PASS or IDENTIFY (R45). -/
def Segment.forwarded : Segment :=
  { extent := none, mediaStart := none, treatment := none, slot := none, error := none, phase := .pending, uses := false }

/-- The sequence state of a front tag at the start of a command (R167). -/
def State.startSeq (s : State) (t : Fin 32) : State := { s with fcp.seq := s.fcp.seq.set t SeqState.start }

/-- A command that ends at once with a status: its STAT is sent and its context is FREE (R46, R47). -/
def State.refuse (s : State) (t : Fin 32) (st : FrontStatus) : State :=
  s.sendFront (.stat (frontByte t) st.toByte 0)

/-- A CMD frame on a front tag (R46, R62): a tag in use is a collision; while the bridge sleeps the answer is NOT_READY. -/
def State.command (s : State) (tag : Byte) (after : Framer) (f : State → Fin 32 → State) : State :=
  match frontTag tag with
  | none => s.frameFault .front after
  | some t =>
    let s := s.framed .front after
    match s.ctx t with
    | some _ => (s.abortCtx t .protocol).settle
    | none =>
      let s := s.startSeq t
      if s.bridge = .sleeping then (s.refuse t .notReady).settle else (f s t).settle

/-- One use counted for each MEDIA segment of a taken command (R20, R25). -/
def State.takeUses (s : State) (segs : List Segment) : State :=
  segs.foldl (fun s g => match g.uses, g.slot with | true, some k => s.takeUse k | _, _ => s) s

/-- A READ, WRITE or TRIM: NOT_READY without C, refused, or taken with its segments and uses (R46, R47, R20). -/
def State.lbaCommand (s : State) (t : Fin 32) (op : Opcode) (start : BitVec 48) (count : BitVec 16)
    (taken : State → State) : State :=
  match s.visible with
  | none => s.refuse t .notReady
  | some v =>
    match s.resolve v (op == .read) start.toNat (sectorCount count) with
    | .error st => s.refuse t st
    | .ok segs =>
      taken ((s.takeUses segs).setCtx t (some
        { Context.fresh op with start := some start.toNat, count := some (sectorCount count), segs := segs }))

/-- A context waits for front data: it joins the grant order with its ungranted sectors (R47, R53, R68). -/
def State.awaitData (s : State) (t : Fin 32) (n : Nat) : State :=
  let s := s.modCtx t fun c => { c with state := .awaitData, ungranted := n }
  { s with stg.grantOrder := s.stg.grantOrder ++ [t] }

/-- Some segment of the context has a media command. -/
def State.anyOnMedia (s : State) (t : Fin 32) : Bool :=
  match s.ctx t with | some c => c.segs.any Segment.onMedia | none => false

/-- The context enters MEDIA_WAIT and its segments are handed to the Media Arbiter (R47, R51). -/
def State.toMedia (s : State) (t : Fin 32) : State := (s.modCtx t fun c => { c with state := .mediaWait }).handOverAll t

/-- READ (R47, R50). -/
def execRead (tag : Byte) (start : BitVec 48) (count : BitVec 16) (s : State) (after : Framer := .idle) :
    Host.Outcome State Fault Refusal :=
  .next (s.command tag after fun s t => s.lbaCommand t .read start count fun s =>
    if s.anyOnMedia t then s.toMedia t else s.modCtx t fun c => { c with state := .delivering })

/-- WRITE (R47, R48, R68). -/
def execWrite (tag : Byte) (start : BitVec 48) (count : BitVec 16) (s : State) (after : Framer := .idle) :
    Host.Outcome State Fault Refusal :=
  .next (s.command tag after fun s t => s.lbaCommand t .write start count fun s => s.awaitData t (sectorCount count))

/-- TRIM (R47, R49). -/
def execTrim (tag : Byte) (start : BitVec 48) (count : BitVec 16) (s : State) (after : Framer := .idle) :
    Host.Outcome State Fault Refusal :=
  .next (s.command tag after fun s t => s.lbaCommand t .trim start count fun s =>
    let s := s.modCtx t fun c =>
      { c with segs := c.segs.map fun g => if g.treatment = some .absorb then { g with phase := .done } else g }
    if s.anyOnMedia t then s.toMedia t else s.endCtx t)

/-- A FLUSH, PASS or IDENTIFY forwarded to the media (R51, R52). -/
def State.forward (s : State) (t : Fin 32) (op : Opcode) (p : Option PassFields) : State :=
  (s.setCtx t (some { Context.fresh op with segs := [Segment.forwarded], passed := p })).toMedia t

/-- FLUSH (R51). -/
def execFlush (tag : Byte) (s : State) (after : Framer := .idle) : Host.Outcome State Fault Refusal :=
  .next (s.command tag after fun s t => s.forward t .flush none)

/-- PASS (R51, R170). -/
def execPass (tag : Byte) (start : BitVec 48) (count : BitVec 16) (params : BitVec 120) (s : State) (after : Framer := .idle) :
    Host.Outcome State Fault Refusal :=
  .next (s.command tag after fun s t => s.forward t .pass (some ⟨start, count, params⟩))

/-- IDENTIFY (R46, R52). -/
def execIdentify (tag : Byte) (s : State) (after : Framer := .idle) : Host.Outcome State Fault Refusal :=
  .next (s.command tag after fun s t =>
    if s.rrs.capacity.isNone then s.refuse t .notReady else s.forward t .identify none)

/-- SEC_SEND (R46, R53, R68). -/
def execSecSend (tag : Byte) (count : BitVec 16) (s : State) (after : Framer := .idle) : Host.Outcome State Fault Refusal :=
  .next (s.command tag after fun s t =>
    if count ≠ 1 then s.refuse t .badLength
    else (s.setCtx t (some { Context.fresh .secSend with count := some 1 })).awaitData t 1)

/-- The ask of a SEC_RECV (R176): the held reply is marked for it, or a fresh record is made. -/
def State.ask (s : State) (t : Fin 32) : State :=
  match s.mgc.channel with
  | .idle => s.modCtx t fun c => { c with record := some .noRequest }
  | .working => s.modCtx t fun c => { c with record := some .pending }
  | .replyReady =>
    if s.mgc.mark.isNone then { s with mgc.mark := some t }
    else s.modCtx t fun c => { c with record := some .noRequest }

/-- SEC_RECV (R46, R53, R176). -/
def execSecRecv (tag : Byte) (count : BitVec 16) (s : State) (after : Framer := .idle) : Host.Outcome State Fault Refusal :=
  .next (s.command tag after fun s t =>
    if count ≠ 1 then s.refuse t .badLength
    else (s.setCtx t (some { Context.fresh .secRecv with count := some 1, state := .delivering })).ask t)

/-- FRONT_ABORT (R61). -/
def execFrontAbort (tag : Byte) (s : State) (after : Framer := .idle) : Host.Outcome State Fault Refusal :=
  .next (match frontTag tag with
    | none => s.frameFault .front after
    | some t => ((s.framed .front after).abortCtx t .aborted).settle)

/-- FRAME_CHECK_FAIL (R163): the bytes fail a check, so they are discarded and LINK_FAULT is set. Bytes that pass every
check are no such event. -/
def execFrameCheckFail (p : Port) (bytes : List Byte) (after : Framer) (s : State) : Host.Outcome State Fault Refusal :=
  .next (if (parseFrame p bytes).isSome then s else s.frameFault p after)

/-- FRAME_SEND (R165): a port sends the oldest frame of its send order, whole. -/
def execFrameSend (p : Port) (s : State) : Host.Outcome State Fault Refusal :=
  .next (match p with
    | .front =>
      match s.fcp.sendOrder with
      | [] => s
      | f :: fs => { s with fcp.sendOrder := fs, fcp.onLanes := some f.frame }
    | .media =>
      match s.mcp.sendOrder with
      | [] => s
      | f :: fs => { s with mcp.sendOrder := fs, mcp.onLanes := some f })

end Sys2Proof.Machine
end

