-- ==== Sys2Proof/Machine/FrontData.lean ====
section
/-! DEFINITION. Front data: the tests of R168, what an accepted frame does (R35, R38, R48, R70), grants (R69), delivery
upstream (R37, R39, R42, R176), completion (R54) and the data timeout (R59). -/

namespace Sys2Proof.Machine

/-! ### FRONT_DATA (R168) -/

/-- A sector enciphered at a media LBA (R34, R35). -/
def encipher (k : Key) (m : Nat) (x : Sector) : Sector := tab fun j => Config.cipher k m j x[j]

/-- A sector deciphered at a media LBA (R34, R36). -/
def decipher (k : Key) (m : Nat) (x : Sector) : Sector := tab fun j => (Config.cipher k m j).symm x[j]

/-- One frame received on the oldest outstanding grant (R59, R70). -/
def consumeGrant : List Grant → List Grant
  | [] => []
  | g :: gs => if g.missing ≤ 1 then gs else ⟨g.missing - 1, g.issued⟩ :: gs

/-- The sequence state after an accepted frame (R168, R169). -/
def SeqState.accepted (q : SeqState) (crc : BitVec 16) : SeqState :=
  { q with expected := !q.expected, lastCrc := some crc }

/-- The key of a segment's slot. -/
def State.segKey (s : State) (g : Segment) : Key := (g.slot.bind s.slotKey).getD Config.absentKey

/-- A sector enters the staging buffer; hold turns on when it brings occupancy to FWM (R66, R67). -/
def State.stage (s : State) (x : Staged) : State :=
  let n := s.stg.staged.length + 1
  { s with stg.staged := s.stg.staged ++ [x], stg.hold := s.stg.hold || decide (s.flow.fwm ≤ n) }

/-- The media LBA of the sector at place `x` of its command, in a segment (R35, R36). -/
def Segment.mediaLba (g : Segment) (c : Context) (x : Nat) : Nat := g.mediaStart.getD 0 + (x - g.offset c)

/-- An accepted frame of a WRITE dealt with by the segment that holds its sector (R48, R70). The last one of a DRAINING segment
settles it, and with it goes any write credit of its tag (R72). -/
def State.writeSector (s : State) (t : Fin 32) (c : Context) (body : Sector) : State :=
  match c.segIndex c.done with
  | none => s
  | some i =>
    match c.segs[i]? with
    | none => s
    | some g =>
      let place := c.done - g.offset c
      let last := place + 1 == g.len c
      match g.phase with
      | .pending =>
        (s.stage ⟨hostTag t i, place, encipher (s.segKey g) (g.mediaLba c c.done) body⟩).handOver t i
      | .queued | .issued =>
        s.stage ⟨hostTag t i, place, encipher (s.segKey g) (g.mediaLba c c.done) body⟩
      | .active => if last then s.modSeg t i fun g => { g with phase := .done } else s
      | .draining =>
        if last then (s.modSeg t i fun g => { g with phase := .failed }).modLane (hostTag t i) fun l => { l with credit := 0 }
        else s
      | _ => s

/-- A front DATA frame accepted (R70): credit used, sectors done raised, the data dealt with by opcode. -/
def State.acceptFront (s : State) (t : Fin 32) (crc : BitVec 16) (body : Sector) : State :=
  match s.ctx t with
  | none => s
  | some c =>
    let s := { s with fcp.seq := upd s.fcp.seq t fun q => q.accepted crc }
    if c.opcode = .secSend then
      let p := s.takeRequest t body
      p.1.modCtx t fun c => { c with done := c.done + 1, grants := consumeGrant c.grants, status := p.2 }
    else
      let s := s.writeSector t c body
      s.modCtx t fun c =>
        { c with
          done := c.done + 1
          grants := consumeGrant c.grants
          state := if some (c.done + 1) = c.count then .mediaWait else c.state }

/-- The tests of R168 on a checked front DATA frame, first line that applies. -/
def State.frontDataTests (s : State) (t : Fin 32) (bit : Bool) (body : Sector) : State :=
  let crc := (Frame.data (frontByte t) bit body).crc
  let q := s.fcp.seq[t]
  match s.ctx t with
  | none => s.raise .linkFault
  | some c =>
    if c.state = .aborting then s
    else if q.stalled then s
    else if bit ≠ q.expected then
      if q.lastCrc = some crc then s
      else { s with fcp.seq := s.fcp.seq.set t { q with stalled := true } }.raise .linkFault
    else if c.credit = 0 then (s.raise .linkFault).abortCtx t .protocol
    else s.acceptFront t crc body

/-- FRONT_DATA (R168). -/
def execFrontData (tag : Byte) (bit : Bool) (body : Sector) (s : State) (after : Framer := .idle) :
    Host.Outcome State Fault Refusal :=
  .next (match frontTag tag with
    | none => s.frameFault .front after
    | some t => ((s.framed .front after).frontDataTests t bit body).settle)

/-! ### FRONT_GRANT (R69) -/

/-- Outstanding write grants: frames granted to WRITE contexts and not yet accepted (R69). -/
def State.writeGrants (s : State) : Nat :=
  (s.cxm.contexts.toList.map fun c => match c with
    | some c => if c.opcode = .write then c.credit else 0
    | none => 0).sum

/-- Free credit (R69). -/
def State.freeCredit (s : State) : Nat := 64 - s.stg.staged.length - s.writeGrants

/-- The size of the grant a context would get now, 0 where it cannot be served (R69). -/
def State.grantSize (s : State) (t : Fin 32) : Nat :=
  match s.ctx t with
  | none => 0
  | some c => if c.opcode = .secSend then 1 else min 8 (min c.ungranted s.freeCredit)

/-- A grant of `n` frames issued to a context (R59, R68, R69). -/
def State.grantFront (s : State) (t : Fin 32) (n : Nat) : State :=
  let s := s.sendFront (.grant (frontByte t) (BitVec.ofNat 16 n))
  let s := s.modCtx t fun c =>
    { c with ungranted := c.ungranted - n, grants := c.grants ++ [⟨n, s.clock⟩] }
  match s.ctx t with
  | some c => if c.ungranted = 0 then { s with stg.grantOrder := s.stg.grantOrder.erase t } else s
  | none => s

/-- FRONT_GRANT (R69): while hold is off, the context nearest the head of the grant order that can be served is. -/
def execFrontGrant (s : State) : Host.Outcome State Fault Refusal :=
  .next (if s.stg.hold then s
    else
      match s.stg.grantOrder.find? fun t => 0 < s.grantSize t with
      | some t => (s.grantFront t (s.grantSize t)).settle
      | none => s)

/-! ### SECTOR_DELIVERY (R37, R39, R42, R53, R176) -/

/-- The held sector of a tag at a place. -/
def State.heldAt (s : State) (m : Fin 130) (place : Nat) : Option Held :=
  s.cph.held.find? fun h => h.tag == m && h.place == place

/-- One sector of a context sent upstream. -/
def State.deliver (s : State) (t : Fin 32) (body : Sector) (reply : Option (BitVec 13)) : State :=
  (s.sendFrontData t body reply).modCtx t fun c => { c with done := c.done + 1, state := .delivering }

/-- A held sector leaves the return buffer (R40, R42). -/
def State.unhold (s : State) (h : Held) : State := { s with cph.held := s.cph.held.erase h }

/-- The next sector of a READ sent upstream, if it is there (R37, R42). -/
def State.deliverRead (s : State) (t : Fin 32) (c : Context) : State :=
  match c.segIndex c.done with
  | none => s
  | some i =>
    if (c.segs.take (i + 1)).any fun g => g.phase == .failed then s
    else
      match c.segs[i]? with
      | none => s
      | some g =>
        let place := c.done - g.offset c
        if g.treatment = some .fill then
          let s := s.deliver t zeroSector none
          if place + 1 = g.len c then s.modSeg t i fun g => { g with phase := .done } else s
        else
          match s.heldAt (hostTag t i) place with
          | some h => (s.unhold h).deliver t h.body none
          | none => s

/-- The held reply delivered to the SEC_RECV that has its mark (R176). -/
def State.deliverReply (s : State) (t : Fin 32) (r : Reply) : State :=
  let s := s.deliver t r.sector (some r.taken)
  { s with
    mgc.heldReply := none
    mgc.mark := none
    mgc.channel := if s.mgc.channel = .replyReady then .idle else s.mgc.channel }

/-- SECTOR_DELIVERY (R42, R39, R176): a context's next sector goes up where it is ready. Only a held reply's frame is marked
as one, so a NO_REQUEST or PENDING frame dropped at a link reset sets no flag (DESIGN CHOICE, log 49). -/
def State.deliverNext (s : State) (t : Fin 32) (c : Context) : State :=
  match c.opcode with
  | .read => s.deliverRead t c
  | .identify =>
    if c.done = 0 ∧ c.segs.all (fun g => g.phase != .failed) then
      match s.heldAt (hostTag t 0) 0 with
      | some h => (s.unhold h).deliver t h.body none
      | none => s
    else s
  | .secRecv =>
    if c.done ≠ 0 then s
    else if s.mgc.mark = some t then
      match s.mgc.heldReply with
      | some r => s.deliverReply t r
      | none => s
    else
      match c.record with
      | some r => (s.deliver t r.sector none).modCtx t fun c => { c with record := none }
      | none => s
  | _ => s

/-- SECTOR_DELIVERY on a front tag (R42). -/
def execSectorDelivery (tag : Byte) (s : State) : Host.Outcome State Fault Refusal :=
  .next (match frontTag tag with
    | none => s
    | some t =>
      match s.ctx t with
      | none => s
      | some c => if c.state = .aborting then s else (s.deliverNext t c).settle)

/-! ### COMMAND_COMPLETE (R54) -/

/-- Sectors of a READ below its lowest FAILED segment, or all of them (R54). -/
def Context.deliverable (c : Context) : Nat :=
  match c.segs.find? fun g => g.phase == .failed with
  | some g => g.offset c
  | none => c.count.getD 0

/-- A QUERY_STATUS carried on a front tag has not been handled yet: the context of the SEC_SEND that carried it is still in use
when its page is read, unless it was aborted before (R180; log 5). -/
def State.carriesQuery (s : State) (t : Fin 32) : Bool :=
  s.mgc.works.any fun w => w.carrier == t && !w.detached && w.stage == .ready && w.req.code == ReqKind.queryStatus.code

/-- The front side of a context is finished (R54, R53). Only a SEC_SEND that was taken, and not one answered BUSY, carried what is
worked on its tag. -/
def State.frontFinished (s : State) (t : Fin 32) (c : Context) : Bool :=
  match c.opcode with
  | .write => some c.done == c.count
  | .read => decide (c.deliverable ≤ c.done)
  | .identify => c.done == 1 || c.segs.any fun g => g.phase == .failed
  | .secSend => c.done == 1 && !(c.status == .good && s.carriesQuery t)
  | .secRecv => c.done == 1
  | .trim | .flush | .pass => true

/-- The status a completed context ends with (R55), and its error code. -/
def Context.final (c : Context) : FrontStatus × BitVec 16 :=
  match c.segs.find? fun g => g.phase == .failed with
  | none => (c.status, c.code)
  | some g =>
    match g.error with
    | some (.media code) => (.mediaError, code)
    | some .timeout => (.mediaTimeout, 0)
    | none => (.mediaError, 0)

/-- The three conditions of R54 hold for a context that is not in ABORTING. -/
def State.complete (s : State) (t : Fin 32) (c : Context) : Bool :=
  c.state != .aborting && s.frontFinished t c && c.segs.all Segment.settled && s.quiet t c

/-- COMMAND_COMPLETE (R54): the STAT of a context that has completed, which becomes FREE. -/
def execCommandComplete (tag : Byte) (s : State) : Host.Outcome State Fault Refusal :=
  .next (match frontTag tag with
    | none => s
    | some t =>
      match s.ctx t with
      | none => s
      | some c =>
        if s.complete t c then
          ((s.modCtx t fun c => { c with status := c.final.1, code := c.final.2 }).endCtx t).settle
        else s)

/-! ### DATA_TIMEOUT (R59) -/

/-- DATA_TIMEOUT (R59): a context's deadline is reached. -/
def execDataTimeout (tag : Byte) (s : State) : Host.Outcome State Fault Refusal :=
  .next (match frontTag tag with
    | none => s
    | some t =>
      match s.ctx t with
      | none => s
      | some c =>
        match c.deadline with
        | none => s
        | some d =>
          if c.state = .awaitData then ((s.advance d).abortCtx t .dataTimeout).settle else s)

end Sys2Proof.Machine
end

