-- ==== Sys2Proof/Machine/MediaFrames.lean ====
section
/-! DEFINITION. Frames from the media (R55, R58, R72, R74 to R76, R169), the media timers (R56, R58), read grants (R41),
the sending of staged sectors (R73), the Media Arbiter (R79, R80) and the offer of sweep chunks (R142). -/

namespace Sys2Proof.Machine

/-! ### Failures of the tags by owner (R56, R57, R74, R75) -/

/-- The media command of a tag fails (R55 to R57, R74, R75; R144 for tag 128, R1 for tag 129). The caller settles or
quiesces the tag. -/
def State.failTag (s : State) (m : Fin 130) (e : SegError) : State :=
  match tagOwner m with
  | some (t, i) => s.failSeg t i e
  | none => if m = chunkTag then s.endChunk true else s.failOwnIdentify

/-- A tag given up by the bridge: its command fails, MEDIA_FAULT is set, an ABORT goes down and the tag quiesces (R56,
R57, R74). The GRANT frames of the segments that become discarding (R42) are handed over before the ABORT; R165 leaves that order
open (DESIGN CHOICE, log 50). -/
def State.giveUpTag (s : State) (m : Fin 130) (e : SegError) : State := ((s.raise .mediaFault).failTag m e).quiesce m

/-! ### MEDIA_DATA (R169) -/

/-- The security-state byte (R22, 10.6). -/
def State.securityByte (s : State) : Byte :=
  let locked := (List.finRange 17).any fun r =>
    s.isDefined r && (s.rrs.ranges[r].readLocked || s.rrs.ranges[r].writeLocked)
  BitVec.ofNat 8 (bitNat locked 0 + bitNat s.lockdown 1 + bitNat s.windowActive 2 + bitNat s.wipeRunning 3)

/-- The identity record of a front IDENTIFY as rewritten (R22). -/
def State.rewriteIdentity (s : State) (x : Sector) : Sector :=
  sectorPatch (sectorPatch x 200 (be 8 (s.visible.getD 0))) 222 [s.securityByte]

/-- The capacity field of an identity record (R1, 10.6). -/
def capacityField (x : Sector) : Nat := sectorField x 200 8

/-- A sector takes its place in the return buffer (R36, R40). -/
def State.hold (s : State) (h : Held) : State := { s with cph.held := s.cph.held ++ [h] }

/-- What an accepted media sector becomes, `k` its place on the tag (R36, R39, R42, R74). -/
def State.mediaSector (s : State) (m : Fin 130) (k : Nat) (body : Sector) : State :=
  match s.segAt m with
  | some (_, _, c, g) =>
    if g.phase ≠ .issued then s
    else if c.opcode = .identify then s.hold ⟨m, k, s.rewriteIdentity body⟩
    else s.hold ⟨m, k, decipher (s.segKey g) (g.mediaStart.getD 0 + k) body⟩
  | none => if m = ownTag then { s with rrs.ownRecord := some (capacityField body) } else s

/-- A media DATA frame accepted (R74): read credit used, its reserved place freed or filled, the timer restarted. -/
def State.acceptMedia (s : State) (m : Fin 130) (crc : BitVec 16) (body : Sector) : State :=
  let k := s.mcp.lanes[m].received
  let s := (s.restartTimer m).modLane m fun l =>
    { l with received := l.received + 1, reserved := l.reserved - 1, seq := l.seq.accepted crc }
  s.mediaSector m k body

/-- The tests of R169 on a checked media DATA frame, first line that applies. On the tag of a DRAINING segment, which has no read
credit, a new frame is an overrun (R72, R74). -/
def State.mediaDataTests (s : State) (m : Fin 130) (bit : Bool) (body : Sector) : State :=
  let crc := (Frame.data (mediaByte m) bit body).crc
  let l := s.mcp.lanes[m]
  if !s.inUse m then s
  else if s.quiescing m then s
  else if l.seq.stalled then s
  else if bit ≠ l.seq.expected then
    if l.seq.lastCrc = some crc then s.restartTimer m
    else (s.modLane m fun l => { l with seq := { l.seq with stalled := true } }).raise .mediaFault
  else if l.readCredit = 0 then s.giveUpTag m (.media 0)
  else s.acceptMedia m crc body

/-- MEDIA_DATA (R169). -/
def execMediaData (tag : Byte) (bit : Bool) (body : Sector) (s : State) (after : Framer := .idle) :
    Host.Outcome State Fault Refusal :=
  .next (match mediaTag tag with
    | none => s.framed .media after
    | some m => ((s.framed .media after).mediaDataTests m bit body).settle)

/-! ### MEDIA_STAT (R75) -/

/-- All sectors of a segment have been exchanged (R55). -/
def State.exchanged (s : State) (m : Fin 130) (c : Context) (g : Segment) : Bool :=
  match c.opcode with
  | .read | .identify => s.mcp.lanes[m].received == g.len c
  | .write => s.mcp.lanes[m].sent == g.len c
  | _ => true

/-- A media STAT on a host segment (R55). -/
def State.hostStat (s : State) (m : Fin 130) (t : Fin 32) (i : Nat) (c : Context) (g : Segment) (code : Option (BitVec 16)) :
    State :=
  match code with
  | some e => (s.failSeg t i (.media e)).settleTag m
  | none =>
    if s.exchanged m c g then (s.finishSeg t i).settleTag m
    else ((s.raise .mediaFault).failSeg t i (.media 0)).settleTag m

/-- A media STAT on tag 128 (R143, R144). -/
def State.chunkStat (s : State) (good : Bool) : State :=
  let allSent := match s.wsq.chunkOut with
    | some k => k.method != .overwrite || s.mcp.lanes[chunkTag].sent == k.len
    | none => true
  let s := if good ∧ !allSent then s.raise .mediaFault else s
  (s.endChunk (!(good && allSent))).settleTag chunkTag

/-- A media STAT on tag 129 (R1): C is offered when the record and then a good STAT have arrived. -/
def State.ownStat (s : State) (good : Bool) : State :=
  let s := s.settleTag ownTag
  match good, s.rrs.ownRecord with
  | true, some v =>
    if 1 ≤ v ∧ v ≤ 2 ^ 48 then { s with rrs.ownRecord := none }.offer v else s.failOwnIdentify
  | _, _ => s.failOwnIdentify

/-- MEDIA_STAT routed by its tag (R58, R75, R76). The code is examined on an error only. R75 gives a STAT on the tag of a DRAINING
segment, which is in use but neither ISSUED nor DISCARDING, no effect (DEDUCED, log 16). -/
def State.mediaStat (s : State) (m : Fin 130) (status : Byte) (code : BitVec 16) : State :=
  if s.quiescing m then s.endQuiesce m
  else if s.mar.issued.contains m then
    match s.segAt m with
    | some (t, i, c, g) => s.hostStat m t i c g (if status = 0 then none else some code)
    | none =>
      if m = chunkTag then s.chunkStat (status = 0)
      else if m = ownTag then s.ownStat (status = 0)
      else s.settleTag m
  else s

/-- MEDIA_STAT (R75). -/
def execMediaStat (tag : Byte) (status : Byte) (code : BitVec 16) (s : State) (after : Framer := .idle) :
    Host.Outcome State Fault Refusal :=
  .next (if 1 < status.toNat then s.frameFault .media after
    else
      match mediaTag tag with
      | none => s.framed .media after
      | some m => ((s.framed .media after).mediaStat m status code).settle)

/-! ### MEDIA_GRANT (R72, R171) -/

/-- The sectors a tag's command takes write credit for, if it takes any (R72). -/
def State.creditTotal (s : State) (m : Fin 130) : Option Nat :=
  match s.segAt m with
  | some (_, _, c, g) => if c.opcode = .write then some (g.len c) else none
  | none =>
    match s.wsq.chunkOut with
    | some k => if m = chunkTag ∧ k.method = .overwrite then some k.len else none
    | none => none

/-- A media GRANT on a tag (R58, R72, R76): credit up to the cap, or MEDIA_FAULT. The credit of a DRAINING segment's tag is never
used, as the segment is not ISSUED (R73). -/
def State.mediaGrant (s : State) (m : Fin 130) (n : Nat) : State :=
  if !s.inUse m ∨ s.quiescing m then s
  else
    let s := s.restartTimer m
    match s.creditTotal m with
    | some total => s.modLane m fun l => { l with credit := min (l.credit + n) (total - l.sent) }
    | none => s.raise .mediaFault

/-- MEDIA_GRANT (R72). -/
def execMediaGrant (tag : Byte) (count : BitVec 16) (s : State) (after : Framer := .idle) : Host.Outcome State Fault Refusal :=
  .next (if count = 0 then s.frameFault .media after
    else
      match mediaTag tag with
      | none => s.framed .media after
      | some m => ((s.framed .media after).mediaGrant m count.toNat).settle)

/-! ### MEDIA_ABORT (R58, R75, R172) -/

/-- A media ABORT on a tag: an acknowledgment, or an abort begun by the media, also of a command whose segment drains (R58, R72,
R75); stray on a tag not in use (R76). -/
def State.mediaAbort (s : State) (m : Fin 130) : State :=
  if s.quiescing m then s.endQuiesce m
  else if s.inUse m then ((s.raise .mediaFault).failTag m (.media 0)).settleTag m
  else s

/-- MEDIA_ABORT (R75). -/
def execMediaAbort (tag : Byte) (s : State) (after : Framer := .idle) : Host.Outcome State Fault Refusal :=
  .next (match mediaTag tag with
    | none => s.framed .media after
    | some m => ((s.framed .media after).mediaAbort m).settle)

/-! ### Timers (R56, R58) -/

/-- MEDIA_TIMEOUT (R56): the running media timer of an issued tag expires. -/
def execMediaTimeout (tag : Byte) (s : State) : Host.Outcome State Fault Refusal :=
  .next (match mediaTag tag with
    | none => s
    | some m =>
      match s.mcp.lanes[m].timer with
      | none => s
      | some t => if s.mar.issued.contains m then ((s.advance t).giveUpTag m .timeout).settle else s)

/-- QUIESCE_TIMEOUT (R58): 8,000 ms have passed since the ABORT of a quiescing tag. -/
def execQuiesceTimeout (tag : Byte) (s : State) : Host.Outcome State Fault Refusal :=
  .next (match mediaTag tag with
    | none => s
    | some m =>
      match s.mcp.lanes[m].quiesce with
      | none => s
      | some t => (((s.advance t).raise .mediaFault).endQuiesce m).settle)

/-! ### READ_GRANT (R41) -/

/-- Every lower MEDIA segment is fully granted or has finished (R41). The grants of a tag are the segment's own from its
issue on. -/
def State.lowerGranted (s : State) (t : Fin 32) (i : Nat) (c : Context) : Bool :=
  (List.range i).all fun j =>
    match c.segs[j]? with
    | none => true
    | some g =>
      g.treatment != some .media || g.settled ||
      ((g.phase == .issued || g.phase == .discarding) && decide (g.len c ≤ s.mcp.lanes[hostTag t j].granted))

/-- The ungranted sectors of an eligible command on a tag; 0 where it is not eligible (R41). -/
def State.ungrantedReads (s : State) (m : Fin 130) : Nat :=
  match s.segAt m with
  | some (t, i, c, g) =>
    if g.phase ≠ .issued then 0
    else if c.opcode = .identify then 1 - s.mcp.lanes[m].granted
    else if c.opcode = .read ∧ s.lowerGranted t i c then g.len c - s.mcp.lanes[m].granted
    else 0
  | none => if m = ownTag then 1 - s.mcp.lanes[m].granted else 0

/-- A read grant of `n` sectors, their places reserved (R40, R41). -/
def State.grantRead (s : State) (m : Fin 130) (n : Nat) : State :=
  (s.modLane m fun l => { l with granted := l.granted + n, reserved := l.reserved + n }).sendMedia
    (.grant (mediaByte m) (BitVec.ofNat 16 n))

/-- READ_GRANT (R41): the eligible command issued earliest is granted what fits. -/
def execReadGrant (s : State) : Host.Outcome State Fault Refusal :=
  .next (if s.freePlaces = 0 then s
    else
      match s.mar.issued.find? fun m => 0 < s.ungrantedReads m with
      | some m => (s.grantRead m (min s.freePlaces (min 8 (s.ungrantedReads m)))).settle
      | none => s)

/-! ### STAGED_SECTOR_SEND (R73) -/

/-- A media DATA frame sent down on a tag with its outbound bit, against its write credit (R72, R73, R167). -/
def State.sendDown (s : State) (m : Fin 130) (body : Sector) : State :=
  (s.sendMedia (.data (mediaByte m) s.mcp.lanes[m].seq.outbound body)).modLane m fun l =>
    { l with credit := l.credit - 1, sent := l.sent + 1, seq := { l.seq with outbound := !l.seq.outbound } }

/-- The oldest sector staged for a tag leaves the buffer and goes down (R66, R67, R73). -/
def State.sendStaged (s : State) (m : Fin 130) : State :=
  match s.stg.staged.find? fun x => x.tag == m with
  | none => s
  | some x =>
    ({ s with stg.staged := s.stg.staged.erase x }.afterLeaving s.stg.staged.length).sendDown m x.body

/-- STAGED_SECTOR_SEND on a media tag (R73). -/
def State.sendSector (s : State) (m : Fin 130) : State :=
  if s.mcp.lanes[m].credit = 0 ∨ !s.mar.issued.contains m then s
  else
    match s.segAt m with
    | some (_, _, c, g) => if g.phase = .issued ∧ c.opcode = .write then s.sendStaged m else s
    | none =>
      match s.wsq.chunkOut with
      | some k => if m = chunkTag ∧ k.method = .overwrite ∧ s.mcp.lanes[m].sent < k.len then s.sendDown m zeroSector else s
      | none => s

/-- STAGED_SECTOR_SEND (R73). -/
def execStagedSectorSend (tag : Byte) (s : State) : Host.Outcome State Fault Refusal :=
  .next (match mediaTag tag with
    | none => s
    | some m => (s.sendSector m).settle)

/-! ### MEDIA_ARBITER_ISSUE (R79, R80) -/

/-- A media CMD frame sent on a tag, whose lane starts afresh with its timer running (R56, R72, R80, R167). -/
def State.issue (s : State) (m : Fin 130) (f : Frame) : State :=
  { (s.modLane m fun _ => { Lane.start with timer := some (s.clock + ms 8000) }).sendMedia f with
    mar.issued := s.mar.issued ++ [m] }

/-- The media CMD frame of a host segment (table of R80). -/
def segFrame (m : Fin 130) (c : Context) (g : Segment) : Frame :=
  match c.opcode, c.passed with
  | .pass, some p => .cmd (mediaByte m) .pass p.start p.count p.params
  | .flush, _ | .identify, _ => .cmd (mediaByte m) c.opcode 0 0 0
  | op, _ => .cmd (mediaByte m) op (BitVec.ofNat 48 (g.mediaStart.getD 0)) (BitVec.ofNat 16 (g.len c)) 0

/-- The oldest host command issued (R47, R55, R80). -/
def State.issueHost (s : State) (m : Fin 130) : State :=
  let s := { s with mar.ready := s.mar.ready.erase m, mar.share := min 15 (s.mar.share + 1) }
  match s.segAt m with
  | none => s
  | some (t, i, c, g) =>
    let s := (s.issue m (segFrame m c g)).modSeg t i fun g => { g with phase := .issued }
    if c.opcode = .read ∧ (c.segs.take i).any fun g => g.phase == .failed then s.startDiscarding t i (g.len c) else s

/-- The waiting chunk issued (R79, R80, R142). -/
def State.issueChunk (s : State) (k : Chunk) : State :=
  { s with mar.chunk := none, mar.share := 0, wsq.chunkOut := some k, wsq.chunkStale := false }.issue chunkTag
    (.cmd (mediaByte chunkTag) (if k.method = Method.overwrite then .write else .trim) (BitVec.ofNat 48 k.first)
      (BitVec.ofNat 16 k.len) 0)

/-- The own IDENTIFY issued (R1, R80). -/
def State.issueOwn (s : State) : State :=
  { s with mar.identify := false, rrs.ownRecord := none }.issue ownTag (.cmd (mediaByte ownTag) .identify 0 0 0)

/-- MEDIA_ARBITER_ISSUE (R79): one command issued, while fewer than 32 are outstanding. -/
def execMediaArbiterIssue (s : State) : Host.Outcome State Fault Refusal :=
  .next (if 32 ≤ s.outstanding then s
    else if s.mar.identify ∧ !s.quiescing ownTag then s.issueOwn.settle
    else
      match s.mar.chunk, s.mar.ready with
      | some k, [] => (s.issueChunk k).settle
      | some k, m :: _ => if s.flow.k ≤ s.mar.share then (s.issueChunk k).settle else (s.issueHost m).settle
      | none, m :: _ => (s.issueHost m).settle
      | none, [] => s)

/-! ### CHUNK_OFFER (R142) -/

/-- CHUNK_OFFER (R142): the chunk at the cursor is offered to the chunk place. -/
def execChunkOffer (s : State) : Host.Outcome State Fault Refusal :=
  .next (match s.rrs.capacity, s.wsq.wipe.cursor with
    | some c, some x =>
      if s.wsq.wipe.state = .sweeping ∧ s.rtb.sleep = .awake ∧ x < c ∧ s.mar.chunk.isNone ∧ s.wsq.chunkOut.isNone ∧
          !s.inUse chunkTag then
        { s with mar.chunk := chunkAt (s.sweepPieces s.wsq.wipe.scope) s.wsq.wipe.method x }.settle
      else s
    | _, _ => s)

end Sys2Proof.Machine
end

