-- ==== Sys2Proof/Machine/StoreWrite.lean ====
section
/-! DEFINITION. The end of a store write (R188, R189): completion, retry or failure, and its reports. -/

namespace Sys2Proof.Machine

/-- One report to one writer (R189). The owners of `erase` and `sweepEffects` act when none of their writes is owed. -/
def State.report (s : State) (ok : Bool) : Writer → State
  | .request id => if ok then s else s.modWork id fun w => { w with storeFailed := true }
  | .closing => if s.wsq.eraseStage = .closing then s.closeErase ok else s
  | .sweepDone => if ok then s.raise .sweepDone else s
  | .erase | .sweepEffects => s

/-- The reports of an entry, then the writes that waited for them: those of the Wipe Sequencer first, then the requests' next
phases in the order in which the requests arrived (R138, R145, R189; DESIGN CHOICE, log 58). -/
def State.reported (s : State) (e : Entry) (ok : Bool) : State :=
  ((e.writers.foldl (fun s w => s.report ok w) s).progressWipe).nextPhases

/-- The write completes (R188). -/
def State.writeCompletes (s : State) (e : Entry) : State :=
  { s with
    cfs.nv := s.cfs.nv.put true e.record
    cfs.writing := none
    cfs.mismatched := s.cfs.mismatched.filter (· != e.record.id) }.reported e true

/-- What a failed write leaves in the record's place: what was read back, failing its check (R185, R188). -/
def leftBehind (written readBack : Record) : Record := if readBack.id = written.id then readBack else written

/-- The write fails for the second time (R188). STORE_FAULT is latched, with the actions and writes that the latch starts, before
the failure is reported to the writers, where the spec gives no order (DESIGN CHOICE, log 60). -/
def State.writeFails (s : State) (e : Entry) (readBack : Record) : State :=
  let s := { s with
    cfs.nv := s.cfs.nv.put false (leftBehind e.record readBack)
    cfs.writing := none
    cfs.mismatched := s.cfs.mismatched.insert e.record.id }
  ((s.raise .storeFault).latch .storeFault).reported e false

/-- STORE_WRITE_DONE (R188): the write in progress is read back at its end. -/
def execStoreWriteDone (readBack : Record) (s : State) : Host.Outcome State Fault Refusal :=
  .next (match s.cfs.writing with
    | none => s
    | some w =>
      let s := s.advance w.till
      if readBack = w.entry.record then (s.writeCompletes w.entry).settle
      else if w.retried then (s.writeFails w.entry readBack).settle
      else { s with cfs.writing := some { w with retried := true, till := w.till + ms 5 } }.settle)

end Sys2Proof.Machine
end

