-- ==== Sys2Proof/Machine/Link.lean ====
section
/-! DEFINITION. The converter's start and merging (R106, R110, R111), link sleep, wake and the retention timer (chapter 9),
and the front link reset (R32, R65, R165, R167, R177). -/

namespace Sys2Proof.Machine

/-! ### Starting a conversion (R106, R110, R111) -/

/-- A conversion starts from IDLE (R106). -/
def State.startConversion (s : State) (c : Conversion) : State :=
  { s with bsc.phase := .zeroing, bsc.phaseStart := s.clock, bsc.running := some c }

/-- The finer of two settings (R107). -/
def Setting.finer (a b : Setting) : Setting := if a.code ≤ b.code then a else b

def Requester.isEnroll : Requester → Bool
  | .enroll _ _ => true
  | _ => false

/-- A requester reaches the converter: it starts a conversion, waits in the pending one, or is refused (R110, R111). -/
def State.askBay (s : State) (m : BayMode) (g : Setting) (r : Requester) : Option State :=
  match s.bsc.running, s.bsc.waiting with
  | none, _ => some (s.startConversion ⟨m, g, [r]⟩)
  | some _, none => some { s with bsc.waiting := some ⟨m, g, [r]⟩ }
  | some _, some p =>
    if p.mode ≠ m ∨ (r.isEnroll ∧ p.requesters.any Requester.isEnroll) then none
    else some { s with bsc.waiting := some { p with setting := p.setting.finer g, requesters := p.requesters ++ [r] } }

/-! ### The end of a wake (R158, R159) -/

def State.powerStatus (s : State) (v : Byte) : State := s.sendFront (.powerStatus v)

/-- The wake ends (R159). -/
def State.endWake (s : State) (o : SleepOutcome) : State :=
  { s with
    rtb.outcome := o
    rrs.bootDone := s.rrs.bootDone && s.rtb.relocked == 0
    rtb.relocked := 0
    rtb.sleep := .awake }.powerStatus statusAwake

/-- One retained key handed back to its slot (R33, R158). -/
def State.restoreKey (s : State) (e : Retained) : State :=
  match s.rtb.key.bind fun k => e.wrapped.opened (.retention k) with
  | some k => s.modSlot (rangeSlot e.range) fun x => { x with key := .live k }
  | none => s

/-- The retained list and the retention key are gone (R151, R158). -/
def State.clearRetained (s : State) : State := { s with rtb.retained := [], rtb.key := none }

/-- The keys are restored (R158). -/
def State.restore (s : State) : State :=
  ((s.rtb.retained.foldl State.restoreKey s).clearRetained).endWake .restored

/-- Every retained key is discarded and its range locked in its enabled directions (R155, R158). -/
def State.relockRetained (s : State) : State :=
  s.rtb.retained.foldl (fun s e => s.lockRange e.range true true) s.clearRetained

/-- The class of the wake measurement handed to the Retention Block (R158). -/
def State.wakeClass (s : State) (c : BayClass) : State :=
  if c = .hit then s.restore else s.relockRetained.endWake .relockedBay

/-- A wake begins (R157). -/
def State.beginWake (s : State) : State :=
  let expired := s.rtb.timer == .expired
  let s := { s with rtb.sleep := .waking, rtb.wakeHeld := false, rtb.timer := .stopped }
  if expired then s.endWake .expired
  else if s.rtb.retained.isEmpty then s.endWake .nothingRetained
  else if s.bsc.record.policy = .off then s.restore
  else (s.askBay .binding s.bsc.record.routine .wake).getD s

/-! ### SLEEP (R152, R153) -/

/-- A refusal condition of SLEEP holds (R152). -/
def State.sleepRefused (s : State) : Bool :=
  s.cxm.contexts.toList.any (·.isSome) || s.mgc.channel == .working || s.engineInUse || s.sweepRunning ||
  s.bsc.running.isSome || s.outstanding != 0

/-- Step 1 of sleep entry: a held reply is discarded (R153, R177). -/
def State.dropHeldReply (s : State) : State :=
  match s.mgc.channel, s.mgc.heldReply with
  | .replyReady, some r =>
    { s with mgc.heldReply := none, mgc.mark := none, mgc.channel := .idle }.discardReply r.taken
  | .replyReady, none => { s with mgc.mark := none, mgc.channel := .idle }
  | _, _ => s

/-- A range whose key is retained at sleep entry (R153 step 3). -/
def State.keeps (s : State) (r : Fin 17) : Option Key :=
  let g := s.rrs.ranges[r]
  if s.isDefined r && g.cfg.policy.hold && !g.cfg.erased && g.cfg.policy.anyLock && !g.lockedBoth then
    s.slotKey (rangeSlot r)
  else none

/-- Step 3 of sleep entry: the kept keys wrapped under a fresh retention key (R153). -/
def State.retainKeys (s : State) : State :=
  let keep := (List.finRange 17).filterMap fun r => (s.keeps r).map fun k => (r, k)
  if keep.isEmpty then s
  else
    let p := s.draw
    { p.1 with
      rtb.key := some p.2
      rtb.retained := keep.map fun x => ⟨x.1, ⟨.retention p.2, x.2⟩⟩ }

/-- Step 4 of sleep entry: every ACTIVE range with a lock enabled has its slot sealed (R33, R153). -/
def State.sealForSleep (s : State) : State :=
  (List.finRange 17).foldl
    (fun s r =>
      let g := s.rrs.ranges[r]
      if !g.cfg.erased && g.cfg.policy.anyLock && s.cph.slots[rangeSlot r].isLive then
        s.modSlot (rangeSlot r) fun x => { x with key := .sealed }
      else s) s

/-- Step 5 of sleep entry (R153). -/
def State.startRetentionTimer (s : State) : State :=
  if s.rtb.retained.isEmpty then s else { s with rtb.timer := .running (s.clock + ms (60000 * s.rtb.limit)) }

/-- Sleep entry (R153). -/
def State.enterSleep (s : State) : State :=
  let s := { s.dropHeldReply with rtb.sleep := .entering, rtb.relocked := 0 }
  ((s.lockWhere fun g => !g.cfg.policy.hold).retainKeys.sealForSleep).startRetentionTimer

/-- SLEEP (R152). -/
def execSleep (s : State) (after : Framer := .idle) : Host.Outcome State Fault Refusal :=
  let s := s.framed .front after
  .next (match s.rtb.sleep with
    | .awake =>
      if s.rrs.capacity.isNone || s.sleepRefused then (s.powerStatus statusBusy).settle else s.enterSleep.settle
    | .entering => s
    | .asleep => (s.powerStatus statusEntered).settle
    | .waking => (s.powerStatus statusBusy).settle)

/-- WAKE (R157). -/
def execWake (s : State) (after : Framer := .idle) : Host.Outcome State Fault Refusal :=
  let s := s.framed .front after
  .next (match s.rtb.sleep with
    | .awake => (s.powerStatus statusAwake).settle
    | .entering => { s with rtb.wakeHeld := true }.settle
    | .asleep => s.beginWake.settle
    | .waking => s)

/-- SLEEP_ENTERED (R154): the store has drained; ENTERED is sent, and a held WAKE is taken at once. -/
def execSleepEntered (s : State) : Host.Outcome State Fault Refusal :=
  .next (if s.rtb.sleep = .entering ∧ s.drained then
      let s := { s with rtb.sleep := .asleep }.powerStatus statusEntered
      (if s.rtb.wakeHeld then s.beginWake else s).settle
    else s)

/-- RETENTION_EXPIRY (R155): the retention timer reaches its limit while ENTERING or ASLEEP. -/
def execRetentionExpiry (s : State) : Host.Outcome State Fault Refusal :=
  .next (match s.rtb.timer with
    | .running till =>
      if s.rtb.sleep = .entering ∨ s.rtb.sleep = .asleep then
        let s := (s.advance till).relockRetained.raise .retentionExpired
        { s with rtb.timer := .expired }.settle
      else s
    | _ => s)

/-! ### LINK_RESET (R65) -/

/-- The FCP's part: the waiting frames but POWER_STATUS discarded, the inbound modes set again (R165, R167). The flags of
discarded reply frames are set again with REPLY_DISCARDED (R182). -/
def State.resetPort (s : State) : State :=
  let dropped := s.fcp.sendOrder.filterMap FrontOut.reply
  let s := { s with
    fcp.sendOrder := s.fcp.sendOrder.filter fun f => match f.frame with | .powerStatus _ => true | _ => false
    fcp.seq := tab fun t => { s.fcp.seq[t] with stalled := false, lastCrc := none } }
  dropped.foldl State.discardReply s

/-- Every context freed without STAT, its uses released, its issued tags aborted (R25, R65). The ABORT frames go in ascending
order of front tag, then of segment (DESIGN CHOICE, log 50). -/
def State.freeContexts (s : State) : State :=
  (List.finRange 32).foldl (fun s t => (s.giveUpSegs t).setCtx t none) s

/-- The buffers after a front link reset (R40, R65 to R68, R71, R78), and the write credit dropped of every host tag, not of tag 128
(R72). -/
def State.clearBuffers (s : State) : State :=
  { s with
    stg := ⟨[], false, []⟩
    cph.held := []
    mar.ready := []
    mcp.lanes := tab fun m =>
      let l := s.mcp.lanes[m]
      { l with reserved := 0, credit := if m.val < 128 then 0 else l.credit } }

/-- The Management Channel at a front link reset (R177). A READ_EVENTS that is detached after it was handled gives its flags back when
REPLY_READY drops its reply, not at the reset (R182; DESIGN CHOICE, log 64). -/
def State.resetChannel (s : State) : State :=
  let s := match s.mgc.heldReply with
    | some r => { s with mgc.heldReply := none }.discardReply r.taken
    | none => s
  let s := if s.mgc.channel = .working then
      { s with mgc.works := s.mgc.works.map fun (w : Work) => { w with detached := true } }.raise .replyDiscarded
    else s
  { s with mgc.channel := .idle, mgc.mark := none }

/-- LINK_RESET (R65). -/
def execLinkReset (s : State) (after : Framer := .idle) : Host.Outcome State Fault Refusal :=
  .next (((((s.framed .front after).resetPort.freeContexts.clearBuffers).lockWhere fun g => g.cfg.policy.relock).resetChannel).raise
    .linkReset).settle

end Sys2Proof.Machine
end

