-- ==== Sys2Proof/Machine/Bay.lean ====
section
/-! DEFINITION. The conversion of the Bay Sense Converter (R106 to R113, R115, R118) and its management requests (R115 to
R117). -/

namespace Sys2Proof.Machine

/-! ### Results (R108, R109, R115) -/

/-- r = floor((2000 D + F/2) / F) (R108). -/
def ratio (g : Setting) (d : Nat) : Nat := (2000 * d + g.f / 2) / g.f

/-- The class of a BINDING result, first line that applies (R108). -/
def bindingClass (b : BayRecord) (g : Setting) (d : Nat) : BayClass :=
  if g.f ≤ d then .openBay
  else if b.faultMark then .fault
  else if d < g.f / 32 then .short
  else
    match b.window with
    | some (lo, hi) => if lo ≤ ratio g d ∧ ratio g d ≤ hi then .hit else .mismatch
    | none => .mismatch

/-- The class of a SELF_TEST result (R109). -/
def selfTestClass (g : Setting) (d : Nat) : BayClass :=
  if g.f ≤ d then .openBay
  else if d < g.f / 32 then .short
  else if 990 ≤ ratio g d ∧ ratio g d ≤ 1010 then .hit
  else .fault

/-- Requester codes (10.6). -/
def Requester.code : Requester → Nat
  | .startUp => 0 | .wake => 1 | .measure _ => 2 | .enroll _ _ => 3

/-- A result record (R108, R109). -/
def resultOf (c : Conversion) (d : Nat) (cls : BayClass) : BayResult :=
  { mode := c.mode, setting := c.setting, d := d, r := if d < c.setting.f then some (ratio c.setting d) else none
    cls := cls, requester := (c.requesters.head?.map Requester.code).getD 0 }

/-- The enrolment that a conversion serves: its work and tolerance (R115). -/
def Conversion.enrolment (c : Conversion) : Option (Nat × Nat) :=
  if c.mode = .binding then
    c.requesters.findSome? fun r => match r with | .enroll w tol => some (w, tol) | _ => none
  else none

/-- An enrolment is accepted (R115). -/
def enrolAccepted (b : BayRecord) (g : Setting) (d : Nat) : Bool :=
  decide (d < g.f) && !b.faultMark && decide (g.f / 32 ≤ d)

/-- The bay record after an accepted enrolment (R115). -/
def BayRecord.enrolled (b : BayRecord) (r tol : Nat) : BayRecord :=
  { b with window := some (r - tol, min 2000 (r + tol)), policy := .warn }

def BayMode.code : BayMode → Nat
  | .binding => 0 | .selfTest => 1

def BayClass.code : BayClass → Nat
  | .hit => 0 | .mismatch => 1 | .openBay => 2 | .short => 3 | .fault => 4

/-- The eight bytes of a bay result record (10.6); `none` is class NOT_MEASURED (log 21). -/
def resultBytes : Option BayResult → List Byte
  | some x =>
    be 1 x.mode.code ++ be 1 x.setting.code ++ be 2 x.d ++ be 2 (x.r.getD 0xFFFF) ++ be 1 x.cls.code ++ be 1 x.requester
  | none => [0, 0] ++ be 2 0 ++ be 2 0xFFFF ++ [5, 0]

/-! ### The phases (R106) -/

/-- ZEROING_END (R106): F counts have elapsed. -/
def execZeroingEnd (s : State) : Host.Outcome State Fault Refusal :=
  .next (match s.bsc.running with
    | some c =>
      if s.bsc.phase = .zeroing then
        let t := s.bsc.phaseStart + c.setting.f * countUnits
        { s.advance t with bsc.phase := .integrating, bsc.phaseStart := t }.settle
      else s
    | none => s)

/-- INTEGRATING_END (R106): F/2 counts have elapsed. -/
def execIntegratingEnd (s : State) : Host.Outcome State Fault Refusal :=
  .next (match s.bsc.running with
    | some c =>
      if s.bsc.phase = .integrating then
        let t := s.bsc.phaseStart + c.setting.f / 2 * countUnits
        { s.advance t with bsc.phase := .deintegrating, bsc.phaseStart := t }.settle
      else s
    | none => s)

/-! ### The end of a conversion (R112) -/

/-- The sources a completed conversion latches and clears (R113). -/
def State.baySources (s : State) (m : BayMode) (cls : BayClass) : State :=
  if s.bsc.record.policy = .off then s
  else
    match m, cls with
    | .binding, .hit => (s.clearSource .bayMismatch).clearSource .bayOpen
    | .binding, .mismatch => s.latch .bayMismatch
    | .selfTest, .hit => s
    | .selfTest, .mismatch => s
    | _, _ => s.latch .bayOpen

/-- The works of a requester list. -/
def Conversion.works (c : Conversion) : List Nat :=
  c.requesters.filterMap fun r => match r with | .measure w | .enroll w _ => some w | _ => none

/-- Steps 1 and 2 of R112 for a BINDING conversion. An accepted enrolment queues the bay record here, before the source record
of the sources its MATCH clears (DESIGN CHOICE, log 52), and only the ENROLL_BAY waits for that write (DESIGN CHOICE, log 55). -/
def State.bindingResult (s : State) (c : Conversion) (d : Nat) : State × BayResult :=
  match c.enrolment with
  | some (w, tol) =>
    if enrolAccepted s.bsc.record c.setting d then
      let b := s.bsc.record.enrolled (ratio c.setting d) tol
      let x := resultOf c d (bindingClass b c.setting d)
      ({ s with bsc.record := b, bsc.lastBay := some x }.queueRecord .bay [.request w], x)
    else
      let x := resultOf c d (bindingClass s.bsc.record c.setting d)
      ({ s with bsc.lastBay := some x }, x)
  | none =>
    let x := resultOf c d (bindingClass s.bsc.record c.setting d)
    ({ s with bsc.lastBay := some x }, x)

/-- Steps 1 and 2 of R112 for a SELF_TEST conversion: the fault mark follows the outcome (R109). Every request that the
conversion serves waits for the write of a changed mark (log 55). -/
def State.selfTestResult (s : State) (c : Conversion) (d : Nat) : State × BayResult :=
  let x := resultOf c d (selfTestClass c.setting d)
  let fails := x.cls != .hit
  let changed := s.bsc.record.faultMark != fails
  let s := { s with bsc.lastSelf := some x, bsc.record := { s.bsc.record with faultMark := fails } }
  (if changed then s.queueRecord .bay (c.works.map .request) else s, x)

/-- One requester receives the result (R112 step 5, R115, R116). -/
def State.deliverResult (s : State) (x : BayResult) : Requester → State
  | .startUp => { s with bsc.awaiting := false }
  | .wake => s.wakeClass x.cls
  | .measure id =>
    match s.work id with
    | some w => s.finish id (.done w.req (resultBytes (some x)))
    | none => s
  | .enroll id _ =>
    match s.work id with
    | some w =>
      if x.cls = .hit then
        let lohi := s.bsc.record.window.getD (0, 0)
        s.finish id (.done w.req (resultBytes (some x) ++ be 2 lohi.1 ++ be 2 lohi.2))
      else s.finish id (.refused w.req .bayMismatch (resultBytes (some x)))
    | none => s

/-- The effects of the end of a conversion, in the order of R112. -/
def State.conversionEnds (s : State) (c : Conversion) (d : Nat) : State :=
  let next := s.bsc.waiting
  let s := { s with bsc.phase := .idle, bsc.running := none, bsc.waiting := none, bsc.phaseStart := s.clock }
  let p := match c.mode with
    | .binding => s.bindingResult c d
    | .selfTest => s.selfTestResult c d
  let s := (p.1.baySources c.mode p.2.cls).raise .bayResult
  let s := c.requesters.foldl (fun s r => s.deliverResult p.2 r) s
  match next with
  | some n => s.startConversion n
  | none => s

/-- DEINTEGRATING_END (R106, R112): the comparator is found crossed after `d` counts, or F counts elapse. -/
def execDeintegratingEnd (d : Nat) (s : State) : Host.Outcome State Fault Refusal :=
  .next (match s.bsc.running with
    | some c =>
      if s.bsc.phase = .deintegrating then
        let n := min d c.setting.f
        ((s.advance (s.bsc.phaseStart + n * countUnits)).conversionEnds c n).settle
      else s
    | none => s)

/-! ### Requests (R115 to R117) -/

/-- A bay request reaches the converter, or is deferred (R111). -/
def State.askFor (s : State) (w : Work) (m : BayMode) (g : Setting) (r : Requester) : State :=
  match s.askBay m g r with
  | some s => s.modWork w.id fun w => { w with stage := .converting, cred := none }
  | none => s.finish w.id (.defer w.req 250)

/-- MEASURE_BAY (R116). -/
def execMeasureBay (s : State) : Host.Outcome State Fault Refusal :=
  .next (s.handle .measureBay fun s w =>
    s.askFor w (if w.req.num 0 1 = 0 then .binding else .selfTest) (Setting.ofCode (w.req.num 1 1)) (.measure w.id))

/-- ENROLL_BAY (R115). -/
def execEnrollBay (s : State) : Host.Outcome State Fault Refusal :=
  .next (s.handle .enrollBay fun s w => s.askFor w .binding .fine (.enroll w.id (w.req.num 0 1)))

/-- SET_BIND_POLICY (R117). -/
def execSetBindPolicy (s : State) : Host.Outcome State Fault Refusal :=
  .next (s.handle .setBindPolicy fun s w =>
    let p := BindPolicy.ofCode (w.req.num 0 1)
    if p ≠ .off ∧ s.bsc.record.window.isNone then s.finish w.id (.refused w.req .badRequest [])
    else
      let s := { s with
        bsc.record := { s.bsc.record with policy := p, routine := Setting.ofCode (w.req.num 1 1) }
        bsc.awaiting := s.bsc.awaiting && p != BindPolicy.off }
      (s.persist w.id [[.cur .bay]]).finish w.id (.done w.req []))

end Sys2Proof.Machine
end

