-- ==== Sys2Proof/Machine/Management.lean ====
section
/-! DEFINITION. The requests the Management Channel, the Staging Buffer and the Retention Block own: QUERY_STATUS and its
pages (R180, 10.6), READ_EVENTS (R182), SET_NOTE_MASK (R183), SET_FLOW (R81), SET_RETENTION (R160). -/

namespace Sys2Proof.Machine

/-! ### Codes of the status pages (10.6) -/

def BridgeState.code : BridgeState → Nat
  | .starting => 0 | .ready => 1 | .sleeping => 2

def SleepState.code : SleepState → Nat
  | .awake => 0 | .entering => 1 | .asleep => 2 | .waking => 3

def SleepOutcome.code : SleepOutcome → Nat
  | .none => 0 | .restored => 1 | .relockedBay => 2 | .expired => 3 | .nothingRetained => 4

def SlotKey.code : SlotKey → Nat
  | .absent => 0 | .sealed => 1 | .live _ => 2 | .destroyed => 3

def CtxState.code : CtxState → Nat
  | .resolving => 1 | .awaitData => 2 | .mediaWait => 3 | .delivering => 4 | .aborting => 5

def AuthState.code : AuthState → Nat
  | .unset => 0 | .enabled => 1 | .disabled => 2 | .blocked => 3

def BayPhase.code : BayPhase → Nat
  | .idle => 0 | .zeroing => 1 | .integrating => 2 | .deintegrating => 3

def BindPolicy.code : BindPolicy → Nat
  | .off => 0 | .warn => 1 | .strict => 2

def DoneMark.code : DoneMark → Nat
  | .none => 0 | .cryptoErase => 3 | .fullWipe => 4

def Method.code : Method → Nat
  | .eraseOnly => 0 | .overwrite => 1 | .release => 2

def WipeState.code : WipeState → Nat
  | .idle => 0 | .erasing => 1 | .sweeping => 2 | .done => 3

def WipeOutcome.code : WipeOutcome → Nat
  | .complete => 1 | .incomplete => 2

def WipeOrigin.code : WipeOrigin → Nat
  | .management => 1 | .response => 2

/-- A one-byte yes or no field: 1 for yes, 0 for no; 10.6 gives no values (DESIGN CHOICE, log 21). -/
def flagByte (b : Bool) : List Byte := be 1 (bitNat b 0)

/-! ### Pages (R180) -/

/-- A range entry of page 0. -/
def State.rangeEntry (s : State) (r : Fin 17) : List Byte :=
  let g := s.rrs.ranges[r]
  be 1 (bitNat (s.isDefined r) 0 + bitNat g.cfg.erased 1 + bitNat g.readLocked 2 + bitNat g.writeLocked 3) ++
    be 1 g.cfg.policy.toBits.toNat ++ be 6 ((g.cfg.extent.map Extent.start).getD 0) ++
    be 6 ((g.cfg.extent.map Extent.len).getD 0)

/-- Page 0. C, the offered capacity and V are 0 where absent (10.6); a value of 2^48 is written as its low 48 bits (DESIGN CHOICE,
log 21). -/
def State.page0 (s : State) : List Byte :=
  be 1 s.bridge.code ++ be 1 s.rtb.sleep.code ++ be 1 s.rtb.outcome.code ++ be 6 (s.rrs.capacity.getD 0) ++
  be 6 (s.rrs.offered.getD 0) ++ be 6 (s.visible.getD 0) ++ be 3 s.rrs.window.w ++
  be 1 (bitNat s.rrs.window.enable 0 + bitNat s.rrs.bootDone 1 + bitNat s.rrs.bootImageWrite 2 +
    bitNat s.windowActive 3) ++
  (List.finRange 17).flatMap s.rangeEntry ++ flagByte s.rrs.tailErased

/-- A tag's byte of page 1. -/
def contextByte : Option Context → List Byte
  | some c => be 1 (16 * c.opcode.toByte.toNat + c.state.code)
  | none => [0]

def State.page1 (s : State) : List Byte :=
  (s.cph.slots.toList.flatMap fun x => be 1 x.key.code ++ be 1 x.uses) ++
  be 1 (s.cxm.contexts.toList.filter (·.isSome)).length ++ s.cxm.contexts.toList.flatMap contextByte ++
  be 1 s.stg.staged.length ++ flagByte s.stg.hold ++ be 1 s.writeGrants ++ be 1 s.flow.fwm ++ be 1 s.flow.ewm ++
  be 1 s.flow.k ++ be 1 s.mar.share ++ be 1 s.outstanding

/-- The grants an authority reports: ADMIN's are every defined range and the tail (R82). -/
def State.grantsOf (s : State) (i : Fin 8) : BitVec 18 :=
  if i = 0 then s.everything else s.aut.authorities[i].grants.setWidth 18

/-- An authority's bytes of page 2. -/
def State.authorityEntry (s : State) (i : Fin 8) : List Byte :=
  let a := s.aut.authorities[i]
  be 1 a.state.code ++ be 1 a.limit ++ be 1 a.remaining ++ setBytes (s.grantsOf i) ++
    be 2 ((s.aut.throttle[i].map s.msLeft).getD 0)

/-- The owners of envelopes in the order of page 2. -/
def Owner.all : List Owner := (List.finRange 8).map Owner.authority ++ [.device]

/-- The envelopes of an owner, counted (R84). -/
def State.envelopeCount (s : State) (o : Owner) : Nat := (s.placesOf fun e => e.owner == o).length

/-- A conversion's three bytes of page 2; zeros where there is none (log 21). -/
def conversionBytes : Option Conversion → List Byte
  | some c =>
    be 1 c.mode.code ++ be 1 c.setting.code ++
      be 1 ((c.requesters.map Requester.code).dedup.map (2 ^ ·)).sum
  | none => [0, 0, 0]

def BayRecord.bytes (b : BayRecord) : List Byte :=
  flagByte b.window.isSome ++ be 2 (b.window.getD (0, 0)).1 ++ be 2 (b.window.getD (0, 0)).2 ++ be 1 b.policy.code ++
    be 1 b.routine.code ++ flagByte b.faultMark

def State.page2 (s : State) : List Byte :=
  (List.finRange 8).flatMap s.authorityEntry ++ (Owner.all.flatMap fun o => be 1 (s.envelopeCount o)) ++
  be 1 s.aut.dead.count ++ be 1 s.aut.dead.limit ++ be 1 s.bsc.phase.code ++ be 2 s.bayCount ++
  conversionBytes s.bsc.running ++ conversionBytes s.bsc.waiting ++ flagByte s.bsc.awaiting ++
  resultBytes s.bsc.lastBay ++ resultBytes s.bsc.lastSelf ++ s.bsc.record.bytes ++ be 1 s.rtb.limit

/-- The wipe record's bytes of page 3 (R134, R180). A cursor that stands at C = 2^48 does not fit its 6 bytes, and its low 48 bits,
zero, are written (DESIGN CHOICE, log 21). -/
def WipeRec.bytes (x : WipeRec) : List Byte :=
  be 1 x.state.code ++ setBytes x.scope ++ be 1 x.method.code ++ flagByte x.full ++
    be 6 (x.cursor.getD 0xFFFFFFFFFFFF) ++ be 2 x.errors ++ setBytes x.eraseSet ++
    be 1 ((x.outcome.map WipeOutcome.code).getD 0) ++ be 1 ((x.origin.map WipeOrigin.code).getD 0)

def State.page3 (s : State) : List Byte :=
  be 1 s.rsp.src.pending.toNat ++ (s.rsp.src.marks.toList.flatMap fun d => be 1 d.code) ++
  (s.rsp.cfg.map.toList.flatMap fun l => be 1 l.val) ++ (s.rsp.cfg.actions.toList.flatMap fun a => be 1 a.code) ++
  be 1 s.rsp.cfg.enables.toNat ++ flagByte s.rsp.cfg.armed ++ be 1 s.rsp.cfg.method.code ++
  (s.rsp.effective.toList.flatMap fun e => be 1 ((e.map Action.code).getD 0xFF)) ++
  be 1 (bitNat s.lockdown 0 + bitNat s.concealment 1) ++ s.wsq.wipe.bytes ++
  be 2 s.mgc.flags.toNat ++ be 2 s.mgc.noteMask.toNat

/-- The page asked for (R180). -/
def State.page (s : State) (n : Nat) : List Byte :=
  if n = 0 then s.page0 else if n = 1 then s.page1 else if n = 2 then s.page2 else s.page3

/-- QUERY_STATUS (R180). -/
def execQueryStatus (s : State) : Host.Outcome State Fault Refusal :=
  .next (s.handle .queryStatus fun s w => s.finish w.id (.done w.req (s.page (w.req.num 0 1))))

/-- READ_EVENTS (R182): the flags then set are cleared and returned. -/
def execReadEvents (s : State) : Host.Outcome State Fault Refusal :=
  .next (s.handle .readEvents fun s w =>
    { s with mgc.flags := 0 }.finish w.id { Reply.done w.req (be 2 s.mgc.flags.toNat) with taken := s.mgc.flags })

/-- Set, then clear, then toggle (R9, R183). -/
def masked {n : Nat} (b set clear toggle : BitVec n) : BitVec n := ((b ||| set) &&& ~~~clear) ^^^ toggle

/-- SET_NOTE_MASK (R183). -/
def execSetNoteMask (s : State) : Host.Outcome State Fault Refusal :=
  .next (s.handle .setNoteMask fun s w =>
    let m := masked s.mgc.noteMask (BitVec.ofNat 13 (w.req.num 0 2)) (BitVec.ofNat 13 (w.req.num 2 2))
      (BitVec.ofNat 13 (w.req.num 4 2))
    let s' := { s with mgc.noteMask := m }
    (if m = s.mgc.noteMask then s' else s'.persist w.id [[.cur .noteMask]]).finish w.id (.done w.req []))

/-- SET_FLOW (R81). -/
def execSetFlow (s : State) : Host.Outcome State Fault Refusal :=
  .next (s.handle .setFlow fun s w =>
    let f : Flow := ⟨w.req.num 0 1, w.req.num 1 1, w.req.num 2 1⟩
    let n := s.stg.staged.length
    let s' := { s with
      flow := f
      stg.hold := if s.stg.hold then decide (f.ewm < n) else decide (f.fwm ≤ n) }
    (s'.persist w.id [[.cur .flow]]).finish w.id (.done w.req []))

/-- SET_RETENTION (R160). -/
def execSetRetention (s : State) : Host.Outcome State Fault Refusal :=
  .next (s.handle .setRetention fun s w =>
    ({ s with rtb.limit := w.req.num 0 1 }.persist w.id [[.cur .retention]]).finish w.id (.done w.req []))

end Sys2Proof.Machine
end

