-- ==== Sys2Proof/Machine/AuthorityRequests.lean ====
section
/-! DEFINITION. The requests of the Authority Unit (R94 to R100, R104). -/

namespace Sys2Proof.Machine

/-! ### UNLOCK, LOCK, BOOT_DONE (R94 to R96) -/

/-- How UNLOCK treats one range of its set (R94). -/
inductive Treated where
  | unlocked
  | undefined | notGranted | erased | noEnvelope | envelopeFailed
  deriving DecidableEq, Repr

/-- The reason codes of the UNLOCK reply (10.6). -/
def Treated.code : Treated → Byte
  | .unlocked => 0 | .undefined => 1 | .notGranted => 2 | .erased => 3 | .noEnvelope => 4 | .envelopeFailed => 5

/-- The first line of R94 that applies to a range, ERASER's requests among them: an undefined range that ERASER names is UNDEFINED,
not NOT_GRANTED (DESIGN CHOICE, log 62). -/
def State.unlockCase (s : State) (i : Fin 8) (c : Credential) (r : Fin 17) : Treated :=
  if !s.isDefined r then .undefined
  else if !(s.grantsOf i).getLsbD r.val then .notGranted
  else if s.rrs.ranges[r].cfg.erased then .erased
  else
    match s.envelopeOf (.authority i) (rangeSlot r) with
    | none => .noEnvelope
    | some e =>
      if s.cph.slots[rangeSlot r].key = SlotKey.sealed ∧ (e.wrapped.opened (.credential c)).isNone then .envelopeFailed
      else .unlocked

/-- A range opened in the directions asked; its SEALED slot receives the key of the envelope (R5, R29, R94). -/
def State.openRange (s : State) (i : Fin 8) (c : Credential) (r : Fin 17) (dir : Nat) : State :=
  let k := (s.envelopeOf (.authority i) (rangeSlot r)).bind fun e => e.wrapped.opened (.credential c)
  let s := match k with
    | some k => s.modSlot (rangeSlot r) fun x => if x.key = SlotKey.sealed then { x with key := .live k } else x
    | none => s
  { s with rrs.ranges := upd s.rrs.ranges r fun g =>
      { g with readLocked := g.readLocked && !dirReads dir, writeLocked := g.writeLocked && !dirWrites dir } }

/-- Boot-done set, and boot-image-write off with it (R12, R13). Where boot-done is set already R12 says that nothing changes,
and R94 and R96 that boot-image-write turns off: it turns off (DESIGN CHOICE, log 42). -/
def State.setBootDone (s : State) : State := { s with rrs.bootDone := true, rrs.bootImageWrite := false }

/-- The range indices of a set, ascending. -/
def rangesOf (b : BitVec 18) : List (Fin 17) := (List.finRange 17).filter fun r => b.getLsbD r.val

/-- The bits of the ranges that satisfy `p`. -/
def rangeBits (p : Fin 17 → Bool) : BitVec 18 :=
  (List.finRange 17).foldl (fun b r => if p r then mark18 b r.val else b) 0

/-- UNLOCK's effects and reply (R94). Boot-image-write turns off with boot-done (R13; log 42). Lockdown that begins between
the end of the verify and this command refuses a user as at the end of the verify (R128; DESIGN CHOICE, log 46). -/
def State.unlock (s : State) (w : Work) : State :=
  if w.req.authority ≠ 0 ∧ s.lockdown then s.finish w.id (.refused w.req .lockdown []) else
  let i := w.req.authority
  let set := w.req.set 0
  let treated (r : Fin 17) : Option Treated := if set.getLsbD r.val then some (s.unlockCase i w.credential r) else none
  let opened := fun r => treated r == some .unlocked
  let skipped := fun r => (treated r).isSome && !opened r
  let s' := (rangesOf set).foldl (fun s r => if opened r then s.openRange i w.credential r (w.req.num 3 1) else s) s
  let s' := if w.req.num 4 1 = 1 then s'.setBootDone else s'
  s'.finish w.id (.done w.req
    (setBytes (rangeBits opened) ++ setBytes (rangeBits skipped) ++
      (List.finRange 17).map fun r => ((treated r).map Treated.code).getD 0))

/-- UNLOCK (R94). -/
def execUnlock (s : State) : Host.Outcome State Fault Refusal := .next (s.handle .unlock State.unlock)

/-- A range's live lock flags differ between two states. -/
def flagsChanged (a b : State) (r : Fin 17) : Bool :=
  a.rrs.ranges[r].readLocked != b.rrs.ranges[r].readLocked || a.rrs.ranges[r].writeLocked != b.rrs.ranges[r].writeLocked

/-- LOCK (R95). -/
def execLock (s : State) : Host.Outcome State Fault Refusal :=
  .next (s.handle .lock fun s w =>
    let dir := w.req.num 3 1
    let s' := (rangesOf (w.req.set 0)).foldl (fun s r => s.lockRange r (dirReads dir) (dirWrites dir)) s
    s'.finish w.id (.done w.req (setBytes (rangeBits (flagsChanged s s')))))

/-- BOOT_DONE (R96). -/
def execBootDone (s : State) : Host.Outcome State Fault Refusal :=
  .next (s.handle .bootDone fun s w => s.setBootDone.finish w.id (.done w.req []))

/-! ### Envelopes of an authority (R85, R97 to R100) -/

/-- The ranges of a grants set that are defined and ACTIVE. -/
def State.activeGrants (s : State) (g : BitVec 17) : List (Fin 17) :=
  (List.finRange 17).filter fun r => g.getLsbD r.val && s.isDefined r && !s.rrs.ranges[r].cfg.erased

/-- The ranges of a grants set that are defined, ACTIVE and whose key can be recovered (R85). -/
def State.keyable (s : State) (g : BitVec 17) (admin : Credential) : List (Fin 17) :=
  (s.activeGrants g).filter fun r => (s.recoverKey (rangeSlot r) admin).isSome

/-- One envelope of an authority for a range's recovered key, and its place. -/
def State.grantEnvelope (s : State) (t : Fin 8) (new admin : Credential) (r : Fin 17) : State × List (Fin 64) :=
  match s.recoverKey (rangeSlot r) admin with
  | some k => s.addEnvelope (.authority t) (rangeSlot r) (.credential new) k
  | none => (s, [])

/-- The envelopes of an authority built afresh under a credential for the keyable ranges of a grants set, and their
places (R98, R99). -/
def State.buildEnvelopes (s : State) (t : Fin 8) (g : BitVec 17) (new admin : Credential) : State × List (Fin 64) :=
  (s.keyable g admin).foldl
    (fun p r => let q := p.1.grantEnvelope t new admin r; (q.1, p.2 ++ q.2))
    (s.dropEnvelopes fun e => e.owner == .authority t, [])

/-- The active ranges of a grants set for which an authority holds no envelope (R98, R99). -/
def State.unkeyed (s : State) (t : Fin 8) (g : BitVec 17) : BitVec 18 :=
  rangeBits fun r => (s.activeGrants g).contains r && (s.envelopeOf (.authority t) (rangeSlot r)).isNone

/-- The envelope count of R85: `create` more envelopes fit after `delete` deletions. -/
def State.fits (s : State) (create delete : Nat) : Bool := decide (create ≤ s.freeEnvelopes + delete)

/-- Change one authority record. -/
def State.setAuthority (s : State) (t : Fin 8) (a : Authority) : State :=
  { s with aut.authorities := s.aut.authorities.set t a }

/-- A throttle cleared (R91). -/
def State.clearThrottle (s : State) (t : Fin 8) : State := { s with aut.throttle := s.aut.throttle.set t none }

/-- Deletions of envelope records. -/
def deletions (ps : List (Fin 64)) : List Write := ps.map fun p => .val (.envelope p none)

/-- Envelope records as they stand. -/
def envelopeWrites (ps : List (Fin 64)) : List Write := ps.map fun p => .cur (.envelope p)

/-- SET_AUTHORITY after its verify (R97, R98). Checks 2 and 3 of R97 are made again for a target that has become UNSET by a full
wipe, or BLOCKED by its own verify, since the request was examined (R83; log 43). A target set UNSET takes the requested limit as
well as the tries (DESIGN CHOICE, log 53). -/
def State.setAuthorityRequest (s : State) (w : Work) : State :=
  let q := w.req
  let t := q.target
  let a := s.aut.authorities[t]
  let limit := q.num 2 1
  let mine (e : Envelope) : Bool := e.owner == .authority t
  let old := s.placesOf mine
  let reply (s : State) (g : BitVec 17) : Reply := .done q (setBytes (s.unkeyed t g))
  if q.askedState = .unset then
    let s := ((s.dropEnvelopes mine).setAuthority t ⟨.unset, none, limit, limit, 0⟩).clearThrottle t
    (s.persist w.id [deletions old, [.cur (.authority t)]]).finish w.id (reply s 0)
  else if a.state = .blocked then s.finish w.id (.refused q .badRequest [])
  else
    match q.newCredential with
    | some new =>
      if !s.fits (s.keyable q.grants w.credential).length old.length then s.finish w.id (.refused q .tableFull [])
      else
        let p := s.buildEnvelopes t q.grants new w.credential
        let s := (p.1.setAuthority t ⟨q.askedState, some (Config.verifierOf new), limit, limit, q.grants⟩).clearThrottle t
        (s.persist w.id [deletions old, [.cur (.authority t)], envelopeWrites p.2]).finish w.id (reply s q.grants)
    | none =>
      if a.verifier.isNone then s.finish w.id (.refused q .badRequest [])
      else
      let left (e : Envelope) : Bool := mine e && !((q.grants.setWidth 18).getLsbD e.range.val)
      let gone := s.placesOf left
      let s := (s.dropEnvelopes left).setAuthority t
        { a with state := q.askedState, limit := limit, remaining := min a.remaining limit, grants := q.grants }
      (s.persist w.id [deletions gone, [.cur (.authority t)]]).finish w.id (reply s q.grants)

/-- SET_AUTHORITY (R98). -/
def execSetAuthority (s : State) : Host.Outcome State Fault Refusal :=
  .next (s.handle .setAuthority State.setAuthorityRequest)

/-- An envelope wrapped again under a new credential; one that does not open with the old one stays as it is (R99; DESIGN CHOICE,
log 26, 59). -/
def Envelope.rewrapped (e : Envelope) (old new : Credential) : Envelope :=
  match e.wrapped.opened (.credential old) with
  | some k => { e with wrapped := ⟨.credential new, k⟩ }
  | none => e

/-- The envelopes of an authority wrapped again (R99). -/
def State.rewrap (s : State) (t : Fin 8) (old new : Credential) : State :=
  { s with aut.envelopes := tab fun p => (s.aut.envelopes[p]).map fun e =>
      if e.owner = .authority t then e.rewrapped old new else e }

/-- SET_CREDENTIAL after its verify (R99). A full wipe may have left the target UNSET since the request was examined: ADMIN acting
for another is refused BAD_REQUEST (R99), and an authority acting for itself NOT_PERMITTED (R90; log 43). A credential that another
SET_CREDENTIAL has replaced since the verify goes on being used (DESIGN CHOICE, log 59). -/
def State.setCredentialRequest (s : State) (w : Work) : State :=
  let q := w.req
  let t := q.target
  let a := s.aut.authorities[t]
  let new : Credential := BitVec.ofNat 256 (q.num 1 32)
  let mine (e : Envelope) : Bool := e.owner == .authority t
  let places := s.placesOf mine
  let a' : Authority := { a with verifier := some (Config.verifierOf new) }
  if a.state = .unset then s.finish w.id (.refused q (if t = q.authority then .notPermitted else .badRequest) [])
  else if t = q.authority then
    let s := (s.rewrap t w.credential new).setAuthority t a'
    (s.persist w.id [envelopeWrites places, [.cur (.authority t)]]).finish w.id (.done q (setBytes (0 : BitVec 18)))
  else if !s.fits (s.keyable a.grants w.credential).length places.length then s.finish w.id (.refused q .tableFull [])
  else
    let p := s.buildEnvelopes t a.grants new w.credential
    let s := p.1.setAuthority t a'
    let changed := (List.finRange 64).filter fun i => places.contains i || p.2.contains i
    (s.persist w.id [envelopeWrites changed, [.cur (.authority t)]]).finish w.id (.done q (setBytes (s.unkeyed t a.grants)))

/-- SET_CREDENTIAL (R99). -/
def execSetCredential (s : State) : Host.Outcome State Fault Refusal :=
  .next (s.handle .setCredential State.setCredentialRequest)

/-- RESET_AUTHORITY after its verify (R100). -/
def State.resetAuthorityRequest (s : State) (w : Work) : State :=
  let t := w.req.target
  let a := s.aut.authorities[t]
  let unsets := a.state == .blocked && a.verifier.isNone
  let mine (e : Envelope) : Bool := unsets && e.owner == .authority t
  let gone := s.placesOf mine
  let s := ((s.dropEnvelopes mine).setAuthority t
    { a with
      remaining := a.limit
      state := if unsets then .unset else if a.state = .blocked then .enabled else a.state }).clearThrottle t
  (s.persist w.id [deletions gone ++ [.cur (.authority t)]]).finish w.id (.done w.req [])

/-- RESET_AUTHORITY (R100). -/
def execResetAuthority (s : State) : Host.Outcome State Fault Refusal :=
  .next (s.handle .resetAuthority State.resetAuthorityRequest)

/-- SET_DEADSTART (R104). -/
def execSetDeadstart (s : State) : Host.Outcome State Fault Refusal :=
  .next (s.handle .setDeadstart fun s w =>
    ({ s with aut.dead.limit := w.req.num 0 1 }.persist w.id [[.cur .deadStart]]).finish w.id (.done w.req []))

end Sys2Proof.Machine
end

