-- ==== Sys2Proof/Machine/LayoutRequests.lean ====
section
/-! DEFINITION. The requests of the Range Resolver: DEFINE_RANGES (R7, R8), MODIFY_POLICY (R9, R10), SET_BOOT_WINDOW
(R14), BOOT_IMAGE_WRITE (R13). -/

namespace Sys2Proof.Machine

/-! ### A change of policy (R10) -/

/-- A change of policy: the state after it, the places of envelopes created, whether the key was not recovered. -/
structure PolicyChange where
  state : State
  created : List (Fin 64)
  unkeyed : Bool

/-- The policy fields of a range replaced; an enable turned off clears its live flag (R5, R10). -/
def Range.withPolicy (g : Range) (p : Policy) : Range :=
  { cfg := { g.cfg with policy := p }
    readLocked := g.readLocked && p.readEn
    writeLocked := g.writeLocked && p.writeEn }

/-- An envelope of the part for a range. -/
def isDevice (i : Fin 18) (e : Envelope) : Bool := e.owner == .device && e.range == i

/-- An ACTIVE range passes from no lock enabled to some lock enabled, so its DEVICE envelope goes (R10). -/
def Range.locksUp (g : Range) (p : Policy) : Bool := !g.cfg.erased && !g.cfg.policy.anyLock && p.anyLock

/-- A range's policy replaced with the effects of R10 on its slot and its DEVICE envelope. The request has deleted the
DEVICE envelopes that go before. -/
def State.setPolicy (s : State) (r : Fin 17) (p : Policy) (admin : Credential) : PolicyChange :=
  let g := s.rrs.ranges[r]
  let i := rangeSlot r
  let s' := { s with rrs.ranges := s.rrs.ranges.set r (g.withPolicy p) }
  if g.cfg.erased ∨ g.cfg.policy.anyLock = p.anyLock ∨ p.anyLock then ⟨s', [], false⟩
  else
    match s.recoverKey i admin with
    | none => ⟨s', [], true⟩
    | some k =>
      let q := s'.addEnvelope .device i .root k
      ⟨q.1.modSlot i fun x => if x.key = SlotKey.sealed then { x with key := .live k } else x, q.2, false⟩

/-- New places of DEVICE envelopes that a change of policy needs, none where the one that stands is kept, and those it deletes
(R10, R84, R85). -/
def State.policyNeeds (s : State) (r : Fin 17) (p : Policy) (admin : Credential) : Nat × Nat :=
  let g := s.rrs.ranges[r]
  if g.cfg.erased ∨ g.cfg.policy.anyLock = p.anyLock then (0, 0)
  else if p.anyLock then (0, (s.placesOf (isDevice (rangeSlot r))).length)
  else (if (s.placesOf (isDevice (rangeSlot r))).isEmpty ∧ (s.recoverKey (rangeSlot r) admin).isSome then 1 else 0, 0)

/-! ### MODIFY_POLICY (R9) -/

/-- The policy of a range after the three masks (R9). -/
def Request.newPolicy (q : Request) (p : Policy) : Policy :=
  Policy.ofBits (masked p.toBits (BitVec.ofNat 8 (q.num 3 1)) (BitVec.ofNat 8 (q.num 4 1)) (BitVec.ofNat 8 (q.num 5 1)))

/-- The DEVICE envelopes of the ranges that satisfy `p` (R10). -/
def deviceOf (p : Fin 17 → Bool) (e : Envelope) : Bool :=
  e.owner == .device && if h : e.range.val < 17 then p ⟨e.range.val, h⟩ else false

/-- MODIFY_POLICY after its verify (R9, R10; log 25): its deletions first (R85), then range by range. -/
def State.modifyPolicy (s : State) (w : Work) : State :=
  let q := w.req
  let rs := rangesOf (q.set 0)
  let want (r : Fin 17) : Policy := q.newPolicy s.rrs.ranges[r].cfg.policy
  let changed := rs.filter fun r => want r != s.rrs.ranges[r].cfg.policy
  let needs := changed.map fun r => s.policyNeeds r (want r) w.credential
  if rs.any fun r => !s.isDefined r then s.finish w.id (.refused q .badRequest [])
  else if !s.fits (needs.map (·.1)).sum (needs.map (·.2)).sum then s.finish w.id (.refused q .tableFull [])
  else
    let leaves := deviceOf fun r => changed.contains r && s.rrs.ranges[r].locksUp (want r)
    let out := changed.foldl
      (fun (p : State × List (Fin 64) × BitVec 18) r =>
        let c := p.1.setPolicy r (want r) w.credential
        (c.state, p.2.1 ++ c.created, if c.unkeyed then mark18 p.2.2 r.val else p.2.2))
      (s.dropEnvelopes leaves, s.placesOf leaves, 0)
    (out.1.persist w.id [changed.map (fun r => .cur (.range r)) ++ envelopeWrites out.2.1]).finish w.id
      (.done q (setBytes out.2.2))

/-- MODIFY_POLICY (R9). -/
def execModifyPolicy (s : State) : Host.Outcome State Fault Refusal :=
  .next (s.handle .modifyPolicy State.modifyPolicy)

/-! ### DEFINE_RANGES (R7, R8) -/

/-- The reference capacity: C, or the offered capacity while C is absent (R7). -/
def State.referenceCapacity (s : State) : Option Nat :=
  match s.rrs.capacity with | some c => some c | none => s.rrs.offered

/-- How an entry compares with the present record of its index (R7). -/
inductive EntryClass where
  | unchanged | moved | new | removed | idle
  deriving DecidableEq, Repr

def classify (present asked : Option Extent) : EntryClass :=
  match present, asked with
  | some a, some b => if a = b then .unchanged else .moved
  | none, some _ => .new
  | some _, none => .removed
  | none, none => .idle

/-- The class of the entry for range `r`. -/
def State.entryClass (s : State) (q : Request) (r : Fin 17) : EntryClass :=
  classify s.rrs.ranges[r].cfg.extent (q.entry r).extent

/-- The user range indices. -/
def userRanges : List (Fin 17) := (List.finRange 17).filter fun r => r != 0

/-- An extent of DEFINE_RANGES is well placed below the reference V (R7 check 2). -/
def Extent.fitsBelow (e : Extent) (v : Nat) : Bool :=
  e.start % 8 == 0 && e.len % 8 == 0 && decide (8 ≤ e.len) && decide (e.start + e.len ≤ v)

/-- Two extents share an LBA. -/
def Extent.overlaps (a b : Extent) : Bool := decide (a.start < b.start + b.len ∧ b.start < a.start + a.len)

/-- The defined entries overlap (R7 check 3). -/
def Request.overlapping (q : Request) : Bool :=
  userRanges.any fun r => userRanges.any fun u =>
    r != u && match (q.entry r).extent, (q.entry u).extent with
      | some a, some b => a.overlaps b
      | _, _ => false

/-- A sweep's scope holds an entry that the request moves, adds or removes (R7 check 4, R141). -/
def State.sweepHolds (s : State) (q : Request) : Bool :=
  s.sweepRunning && userRanges.any fun r =>
    match s.entryClass q r with
    | .moved | .new | .removed => s.wsq.wipe.scope.getLsbD r.val || s.wsq.wipe.scope.getLsbD 0
    | _ => false

/-- The envelopes of a range, whatever their owner. -/
def ofRange (i : Fin 18) (e : Envelope) : Bool := e.range == i

/-- Envelopes that one entry needs, and those it deletes (R7 check 6, R8, R10). -/
def State.entryNeeds (s : State) (q : Request) (admin : Credential) (r : Fin 17) : Nat × Nat :=
  let p := (q.entry r).policy
  let all := (s.placesOf (ofRange (rangeSlot r))).length
  match s.entryClass q r with
  | .unchanged => s.policyNeeds r p admin
  | .moved => (if p.anyLock then 1 else 2, all)
  | .new => (if p.anyLock then 1 else 2, all)
  | .removed => (0, all)
  | .idle => (0, 0)

/-- The checks of R7 after the verify, first that fails, and the deferral of R138. -/
def State.defineChecks (s : State) (q : Request) (admin : Credential) : Option Reply :=
  match s.referenceCapacity with
  | none => some (.defer q 100)
  | some cap =>
    let v := cap - s.rrs.window.w
    let bad := userRanges.any fun r => match (q.entry r).extent with
      | some e => !e.fitsBelow v
      | none => false
    let busy := userRanges.any fun r => match s.entryClass q r with
      | .moved | .removed => decide (0 < s.cph.slots[rangeSlot r].uses)
      | _ => false
    let needs := userRanges.map (s.entryNeeds q admin)
    if bad then some (.refused q .badRequest [])
    else if q.overlapping then some (.refused q .badRequest [])
    else if s.sweepHolds q then some (.refused q .wiping [])
    else if busy then some (.defer q 100)
    else if !s.fits (needs.map (·.1)).sum (needs.map (·.2)).sum then some (.refused q .tableFull [])
    else if s.wsq.wipe.eraseSet ≠ 0 then some (.defer q 100)
    else none

/-- The envelopes that DEFINE_RANGES deletes: all of a moved, new or removed range, and the DEVICE envelope of an unchanged one
that passes to some lock enabled (R8, R10). -/
def State.leaving (s : State) (q : Request) (e : Envelope) : Bool :=
  if h : e.range.val < 17 then
    let r : Fin 17 := ⟨e.range.val, h⟩
    r != 0 && match s.entryClass q r with
      | .moved | .new | .removed => true
      | .unchanged => e.owner == .device && s.rrs.ranges[r].locksUp (q.entry r).policy
      | .idle => false
  else false

/-- What DEFINE_RANGES did so far: the state, records to store undefined, places created, records to store in their final
form. -/
structure Defining where
  state : State
  undefinedRecords : List (Fin 17)
  created : List (Fin 64)
  final : List (Fin 17)

/-- A range given a fresh key and its envelopes for its policy (R8, R30, R150): SEALED if both lock enables are on. -/
def State.freshRange (s : State) (r : Fin 17) (e : Option Extent) (p : Policy) (admin : Credential) :
    State × List (Fin 64) :=
  let d := s.draw
  let i := rangeSlot r
  let g : Range := ⟨⟨e, p, false⟩, p.readEn, p.writeEn⟩
  let s := { d.1 with rrs.ranges := d.1.rrs.ranges.set r g }
  let s := s.modSlot i fun x => { x with key := if g.lockedBoth then .sealed else .live d.2 }
  let a := s.addEnvelope (.authority 0) i (.credential admin) d.2
  let b := if p.anyLock then (a.1, []) else a.1.addEnvelope .device i .root d.2
  (b.1, a.2 ++ b.2)

/-- An undefined range's record and slot (R4, R8). -/
def State.undefineRange (s : State) (r : Fin 17) : State :=
  { s with rrs.ranges := s.rrs.ranges.set r ⟨RangeCfg.shipped, false, false⟩ }.modSlot (rangeSlot r) fun x =>
    { x with key := .absent }

/-- R8 for one index, the envelopes that go being deleted already. -/
def Defining.entry (q : Request) (admin : Credential) (d : Defining) (r : Fin 17) : Defining :=
  let s := d.state
  let x := q.entry r
  match s.entryClass q r with
  | .idle => d
  | .unchanged =>
    if s.rrs.ranges[r].cfg.policy = x.policy then d
    else
      let c := s.setPolicy r x.policy admin
      ⟨c.state, d.undefinedRecords, d.created ++ c.created, d.final ++ [r]⟩
  | .removed => ⟨s.undefineRange r, d.undefinedRecords ++ [r], d.created, d.final⟩
  | .moved =>
    let p := s.freshRange r x.extent x.policy admin
    ⟨p.1, d.undefinedRecords ++ [r], d.created ++ p.2, d.final ++ [r]⟩
  | .new =>
    let p := s.freshRange r x.extent x.policy admin
    ⟨p.1, d.undefinedRecords, d.created ++ p.2, d.final ++ [r]⟩

/-- DEFINE_RANGES after its verify (R7, R8, R2): its deletions first (R85), then index by index (R8). Its reply has no body (10.6;
log 45). -/
def State.defineRanges (s : State) (w : Work) : State :=
  let q := w.req
  match s.defineChecks q w.credential with
  | some r => s.finish w.id r
  | none =>
    let d := userRanges.foldl (Defining.entry q w.credential) ⟨s.dropEnvelopes (s.leaving q), [], [], []⟩
    ((d.state.persist w.id
      [d.undefinedRecords.map (fun r => .val (.range r RangeCfg.shipped)) ++ deletions (s.placesOf (s.leaving q)),
       envelopeWrites d.created,
       d.final.map fun r => .cur (.range r)]).tryAccept).finish w.id (.done q [])

/-- DEFINE_RANGES (R8). -/
def execDefineRanges (s : State) : Host.Outcome State Fault Refusal :=
  .next (s.handle .defineRanges State.defineRanges)

/-! ### SET_BOOT_WINDOW (R14) and BOOT_IMAGE_WRITE (R13) -/

/-- The checks of R14 after the verify, first that fails, and the deferral of R138. -/
def State.windowChecks (s : State) (q : Request) : Option Reply :=
  let w := q.num 0 3
  match s.referenceCapacity with
  | none => some (.defer q 100)
  | some cap =>
    if w % 8 ≠ 0 ∨ 131072 < w ∨ cap ≤ w then some (.refused q .badRequest [])
    else if s.userExtents.any fun p => decide (cap - w < p.2.start + p.2.len) then some (.refused q .badRequest [])
    else if s.cxm.contexts.toList.any (·.isSome) then some (.refused q .busy [])
    else if s.sweepRunning then some (.refused q .wiping [])
    else if w ≠ s.rrs.window.w ∧ !s.fits 2 (s.placesOf (ofRange tailSlot)).length then some (.refused q .tableFull [])
    else if s.wsq.wipe.eraseSet ≠ 0 then some (.defer q 100)
    else none

/-- A fresh key for the tail, with its ADMIN and DEVICE envelopes, their places, and erase state ACTIVE (R14, R150). -/
def State.freshTail (s : State) (admin : Credential) : State × List (Fin 64) :=
  let d := s.draw
  let s := { d.1 with rrs.tailErased := false }.modSlot tailSlot fun x => { x with key := .live d.2 }
  let a := s.addEnvelope (.authority 0) tailSlot (.credential admin) d.2
  let b := a.1.addEnvelope .device tailSlot .root d.2
  (b.1, a.2 ++ b.2)

/-- SET_BOOT_WINDOW after its verify (R14, R2; log 25). -/
def State.setBootWindow (s : State) (w : Work) : State :=
  let q := w.req
  match s.windowChecks q with
  | some r => s.finish w.id r
  | none =>
    let n := q.num 0 3
    let old := s.placesOf (ofRange tailSlot)
    let moved := n ≠ s.rrs.window.w
    let wasErased := s.rrs.tailErased
    let s := { s with rrs.window := ⟨n, q.num 3 1 = 1⟩ }
    let p := if moved then (s.dropEnvelopes (ofRange tailSlot)).freshTail w.credential else (s, [])
    let changed := if moved then (List.finRange 64).filter fun i => old.contains i || p.2.contains i else []
    let tail : List Write := if moved ∧ wasErased then [.cur .tail] else []
    ((p.1.persist w.id [.cur .bootWindow :: (envelopeWrites changed ++ tail)]).tryAccept).finish w.id (.done q [])

/-- SET_BOOT_WINDOW (R14). -/
def execSetBootWindow (s : State) : Host.Outcome State Fault Refusal :=
  .next (s.handle .setBootWindow State.setBootWindow)

/-- BOOT_IMAGE_WRITE (R13). -/
def execBootImageWrite (s : State) : Host.Outcome State Fault Refusal :=
  .next (s.handle .bootImageWrite fun s w =>
    { s with rrs.bootImageWrite := w.req.num 0 1 = 1 }.finish w.id (.done w.req []))

end Sys2Proof.Machine
end

