-- ==== Sys2Proof/Machine/ResponseRequests.lean ====
section
/-! DEFINITION. The requests of the Response Controller and the Wipe Sequencer: SET_RESPONSE (R132), ACK_SOURCES (R133),
WIPE (R149), REKEY (R150). -/

namespace Sys2Proof.Machine

/-! ### SET_RESPONSE (R132) and ACK_SOURCES (R133) -/

/-- The set of the sources in a list. -/
def sourceBits (l : List (Fin 6)) : BitVec 6 := l.foldl (fun b i => b ||| (1#6 <<< i.val)) 0

/-- SET_RESPONSE after its verify (R132). The reply carries the sources whose actions were started. -/
def State.setResponse (s : State) (w : Work) : State :=
  let cfg := w.req.response
  if cfg = s.rsp.cfg then s.finish w.id (.done w.req (be 1 0))
  else
    let s' := { s with rsp.cfg := cfg }.queueRecord .responseCfg [.request w.id]
    let started := sourceBits (s'.starters.map (·.1))
    let s'' := s'.evaluate
    let s'' := if s''.rsp.src.marks = s.rsp.src.marks then s'' else s''.queueRecord .source [.request w.id]
    s''.finish w.id (.done w.req (be 1 started.toNat))

/-- SET_RESPONSE (R132). -/
def execSetResponse (s : State) : Host.Outcome State Fault Refusal :=
  .next (s.handle .setResponse State.setResponse)

/-- The done marks with those of a set of sources gone. -/
def SourceRec.without (x : SourceRec) (gone : BitVec 6) : SourceRec :=
  ⟨x.pending &&& ~~~gone, tab fun i => if gone.getLsbD i.val then .none else x.marks[i]⟩

/-- ACK_SOURCES after its verify (R133). -/
def State.ackSources (s : State) (w : Work) : State :=
  let named : BitVec 6 := BitVec.ofNat 6 (w.req.num 0 1)
  let kept := named &&& Source.adminBlocked.bit
  let cleared := named &&& s.rsp.src.pending &&& ~~~Source.adminBlocked.bit
  let s := if cleared = 0 then s
    else ({ s with rsp.src := s.rsp.src.without cleared }.queueRecord .source [.request w.id]).evaluate
  s.finish w.id (.done w.req (be 1 cleared.toNat ++ be 1 kept.toNat))

/-- ACK_SOURCES (R133). -/
def execAckSources (s : State) : Host.Outcome State Fault Refusal :=
  .next (s.handle .ackSources State.ackSources)

/-! ### WIPE (R149) -/

/-- A set names an undefined user range. -/
def State.namesUndefined (s : State) (b : BitVec 18) : Bool := (rangesOf b).any fun r => !s.isDefined r

/-- The erase order of a WIPE (R136). -/
def State.wipeOrder (s : State) (q : Request) : Order :=
  let m := Method.ofCode (q.num 3 1)
  { list := q.set 0, method := m, full := m != .eraseOnly && q.set 0 == s.everything, origin := .management }

/-- WIPE after its verify (R149). The wipe state in its reply is filled in at release. -/
def State.wipeRequest (s : State) (w : Work) : State :=
  let o := s.wipeOrder w.req
  if s.namesUndefined o.list then s.finish w.id (.refused w.req .badRequest [])
  else if o.method ≠ .eraseOnly ∧ s.sweepRunning then s.finish w.id (.defer w.req 1000)
  else
    let swept : BitVec 18 := if o.method = .eraseOnly then 0 else o.list
    (s.eraseOrder o [.request w.id]).finish w.id (.done w.req (setBytes o.list ++ setBytes swept ++ [0]))

/-- WIPE (R149). -/
def execWipe (s : State) : Host.Outcome State Fault Refusal := .next (s.handle .wipe State.wipeRequest)

/-! ### REKEY (R150) -/

/-- The index that REKEY names. -/
def Request.index (q : Request) : Fin 18 := ⟨q.num 0 1 % 18, Nat.mod_lt _ (by decide)⟩

/-- A range or the tail is ERASED. -/
def State.isErased (s : State) (i : Fin 18) : Bool :=
  if h : i.val < 17 then s.rrs.ranges[i.val].cfg.erased else s.rrs.tailErased

/-- The end of a range's highest LBA, where its extent is known (R150 check 4; log 38). That of range 0 and of the tail is unknown
while C is absent, and the cursor has then not passed it (DESIGN CHOICE, log 38). -/
def State.endOf (s : State) (i : Fin 18) : Option Nat :=
  if h : i.val < 17 then
    match s.rrs.ranges[i.val].cfg.extent with
    | some e => some (e.start + e.len)
    | none => s.rrs.capacity.map fun _ => ((s.sweepPieces (mark18 0 i.val)).map fun e => e.start + e.len).foldl max 0
  else s.rrs.capacity

/-- The cursor has passed a range's last LBA (R150 check 4). -/
def State.swept (s : State) (i : Fin 18) : Bool :=
  match s.wsq.wipe.cursor, s.endOf i with
  | some x, some e => decide (e ≤ x)
  | _, _ => false

/-- The range or tail has no lock enabled, so its DEVICE envelope is made (R84, R150). -/
def State.lockFree (s : State) (i : Fin 18) : Bool :=
  if h : i.val < 17 then !s.rrs.ranges[i.val].cfg.policy.anyLock else true

/-- The checks of R150 after the verify, first that fails. -/
def State.rekeyChecks (s : State) (q : Request) : Option Reply :=
  let i := q.index
  if s.namesUndefined (mark18 0 i.val) then some (.refused q .badRequest [])
  else if !s.isErased i then some (.refused q .badRequest [])
  else if s.wsq.wipe.eraseSet.getLsbD i.val then some (.defer q 100)
  else if s.sweepRunning ∧ s.wsq.wipe.scope.getLsbD i.val ∧ !s.swept i then some (.refused q .wiping [])
  else if !s.fits (if s.lockFree i then 2 else 1) (s.placesOf (ofRange i)).length then some (.refused q .tableFull [])
  else none

/-- A fresh key, its envelopes and ACTIVE for a range or the tail, and the places of the envelopes (R30, R150). -/
def State.rekey (s : State) (i : Fin 18) (admin : Credential) : State × List (Fin 64) :=
  if h : i.val < 17 then
    let cfg := s.rrs.ranges[i.val].cfg
    s.freshRange ⟨i.val, h⟩ cfg.extent cfg.policy admin
  else s.freshTail admin

/-- REKEY after its verify (R150). -/
def State.rekeyRequest (s : State) (w : Work) : State :=
  let q := w.req
  let i := q.index
  match s.rekeyChecks q with
  | some r => s.finish w.id r
  | none =>
    let inScope := s.wsq.wipe.scope.getLsbD i.val
    let s := if inScope then { s with wsq.wipe := { s.wsq.wipe with scope := s.wsq.wipe.scope &&& ~~~(mark18 0 i.val) } }
      else s
    let p := s.rekey i w.credential
    let first : List Write := if inScope then [.cur .wipe] else []
    (p.1.persist w.id [first ++ envelopeWrites p.2 ++ [.cur (rangeRecord i)]]).finish w.id (.done q [])

/-- REKEY (R150). -/
def execRekey (s : State) : Host.Outcome State Fault Refusal := .next (s.handle .rekey State.rekeyRequest)

end Sys2Proof.Machine
end

