-- ==== Sys2Proof/Machine/Power.lean ====
section
/-! DEFINITION. Power-on (R101): the store's load (R185, R186), the retention domain (R161), the volatile state built from
the loaded records (R4, R28, R147), and the work of step 5 (R103, R118, R130, R147). -/

namespace Sys2Proof.Machine

/-! ### The load (R186) -/

/-- A record as handed to its owner: as stored, or its fail-closed value (R186). -/
def Stored.load {α : Type} (x : Stored α) (failClosed : α) : α := if x.ok then x.val else failClosed

/-- The fail-closed authority record (R82). -/
def Authority.failClosed (i : Fin 8) : Authority :=
  ⟨.blocked, if i = 0 then some (Config.verifierOf Config.factoryCredential) else none, 5, 0, 0⟩

/-- The policy of a fail-closed range record (R186). -/
def Policy.failClosed : Policy := ⟨true, true, false, false, true⟩

/-- A stored extent that a fail-closed user range may keep (R186). -/
def Extent.wellFormed (e : Extent) (lower : List Extent) : Bool :=
  e.start % 8 == 0 && e.len % 8 == 0 && decide (8 ≤ e.len) && !lower.any e.overlaps

/-- A user range as loaded, given the extents of the lower user ranges already loaded as defined (R186). An undefined one has
the fields of R4. -/
def loadUserRange (x : Stored RangeCfg) (lower : List Extent) : RangeCfg :=
  if x.ok then (if x.val.extent.isSome then x.val else RangeCfg.shipped)
  else
    match x.val.extent with
    | some e => if e.wellFormed lower then ⟨some e, Policy.failClosed, false⟩ else RangeCfg.shipped
    | none => RangeCfg.shipped

/-- The user ranges as loaded, in index order, from those stored. -/
def loadUserRanges : List (Stored RangeCfg) → List Extent → List RangeCfg
  | [], _ => []
  | x :: xs, lower =>
    let g := loadUserRange x lower
    g :: loadUserRanges xs (lower ++ g.extent.toList)

/-- Range 0 as loaded (R186). -/
def loadRange0 (x : Stored RangeCfg) : RangeCfg := x.load ⟨none, Policy.failClosed, false⟩

/-- The range records as loaded. -/
def Nv.loadRanges (nv : Nv) : Vector RangeCfg 17 :=
  let users := loadUserRanges (nv.ranges.toList.drop 1) []
  tab fun r => if r = 0 then loadRange0 nv.ranges[0] else (users[r.val - 1]?).getD RangeCfg.shipped

/-- The wipe record that replaces one that fails its check (R134). -/
def WipeRec.failClosed : WipeRec := ⟨.done, 0, .eraseOnly, false, none, 0, 0, some .incomplete, none⟩

/-- The bay record that replaces one that fails its check (R114). -/
def BayRecord.failClosed : BayRecord := ⟨none, .strict, .standard, false⟩

/-! ### The store at a loss of power (R188) -/

/-- What the store holds at the load: a write in progress landed or not, and the records that then fail their check. A
record left failing by a second mismatch stays failing (R188; log 11). -/
def Cfs.atPowerOn (c : Cfs) (landed : Bool) (corrupt : List Record) : Nv :=
  let nv := match c.writing with
    | some w => if landed then c.nv.put (!c.mismatched.contains w.entry.record.id) w.entry.record else c.nv
    | none => c.nv
  corrupt.foldl (fun nv r => nv.put false r) nv

/-! ### Volatile state (R4, R28, R101 step 2) -/

/-- A range as built at power-on: the live flags from the enables (R4), ERASED where the stored erase set holds it, whatever
its record says (R147). -/
def rangeAtPowerOn (x : WipeRec) (r : Fin 17) (g : RangeCfg) : Range :=
  let g := if x.eraseSet.getLsbD r.val then { g with erased := true } else g
  ⟨g, g.policy.readEn, g.policy.writeEn⟩

/-- The key that the part's own envelope for a range gives (R28). -/
def deviceKey (es : Vector (Option Envelope) 64) (i : Fin 18) : Option Key :=
  ((es.toList.filterMap id).find? fun e => isDevice i e).bind fun e => e.wrapped.opened .root

/-- The slot of a range at power-on (table of R28), DESTROYED where the stored erase set holds it (R147). -/
def slotAtPowerOn (x : WipeRec) (es : Vector (Option Envelope) 64) (r : Fin 17) (g : Range) : SlotKey :=
  if x.eraseSet.getLsbD r.val then .destroyed
  else if r ≠ 0 ∧ g.cfg.extent.isNone then .absent
  else if g.cfg.erased then .destroyed
  else if g.cfg.policy.anyLock then .sealed
  else
    match deviceKey es (rangeSlot r) with
    | some k => .live k
    | none => .sealed

/-- Slot 17 at power-on, for the tail's loaded erase state (table of R28). -/
def tailAtPowerOn (es : Vector (Option Envelope) 64) (erased : Bool) : SlotKey :=
  if erased then .destroyed
  else
    match deviceKey es tailSlot with
    | some k => .live k
    | none => .destroyed

/-- The state that steps 1 and 2 of R101 build from what the store holds. -/
def State.built (s : State) (nv : Nv) : State :=
  let wipe := nv.wipe.load WipeRec.failClosed
  let es : Vector (Option Envelope) 64 := tab fun p => nv.envelopes[p].load none
  let cfgs := nv.loadRanges
  let ranges : Vector Range 17 := tab fun r => rangeAtPowerOn wipe r cfgs[r]
  let tailErased := nv.tail.load true || wipe.eraseSet.getLsbD 17
  let tail := tailAtPowerOn es tailErased
  let bay := nv.bay.load BayRecord.failClosed
  { fcp := ⟨.idle, tab fun _ => SeqState.start, [], none⟩
    mcp := ⟨.idle, tab fun _ => Lane.start, [], none⟩
    rrs :=
      { ranges := ranges
        tailErased := tail == SlotKey.destroyed
        window := nv.bootWindow.load BootWindow.shipped
        capacity := none
        offered := none
        ownRecord := none
        bootDone := false
        bootImageWrite := false }
    cph :=
      { slots := tab fun i =>
          if h : i.val < 17 then ⟨slotAtPowerOn wipe es ⟨i.val, h⟩ ranges[i.val], 0⟩ else ⟨tail, 0⟩
        held := [] }
    cxm := ⟨tab fun _ => none⟩
    stg := ⟨[], false, []⟩
    flow := nv.flow.load Flow.shipped
    mar := ⟨[], true, none, 0, []⟩
    aut :=
      { authorities := tab fun i => nv.authorities[i].load (Authority.failClosed i)
        throttle := tab fun _ => none
        envelopes := es
        dead := nv.deadStart.load ⟨0, 0⟩ }
    bsc := ⟨.idle, 0, none, none, none, none, bay.policy != .off, bay⟩
    rsp := ⟨nv.source.load SourceRec.empty, nv.responseCfg.load ResponseCfg.factory, tab fun _ => none⟩
    wsq := ⟨wipe, none, false, .none, false, none⟩
    rtb := ⟨.awake, false, [], none, .stopped, 0, .none, nv.retention.load 30⟩
    mgc := ⟨.idle, none, none, [], 0, Flag.powerOn.bit, nv.noteMask.load noteMaskShipped⟩
    cfs := ⟨nv, [], none, [], s.cfs.mismatched⟩
    clock := s.clock
    draws := s.draws
    pending := s.pending }

/-! ### Steps 1 to 5 of R101 -/

/-- STORE_FAULT for records that failed their check, once for the load (R186). -/
def State.loadFaults (s : State) : State :=
  if s.cfs.nv.allPass then s else (s.raise .storeFault).latchOnly .storeFault

/-- Step 3 of R101: the sources of authorities loaded BLOCKED from records that passed. -/
def State.latchBlocked (s : State) : State :=
  (List.finRange 8).foldl
    (fun s i =>
      if s.cfs.nv.authorities[i].ok ∧ s.aut.authorities[i].state = .blocked then
        s.latchOnly (if i = 0 then .adminBlocked else .nonadminBlocked)
      else s) s

/-- Step 4 of R101: the dead-start step (R103). -/
def State.deadStartStep (s : State) : State :=
  let d := s.aut.dead
  let s := if (d.limit ≠ 0 ∧ d.count = d.limit) ∨ d.count = 250 then s
    else { s with aut.dead.count := d.count + 1 }.queueRecord .deadStart []
  if d.limit ≠ 0 ∧ s.aut.dead.count = d.limit then s.latchOnly .deadman else s

/-- The start-up measurement (R118). -/
def State.startUpMeasurement (s : State) : State :=
  if s.bsc.record.policy = .off then s
  else s.startConversion ⟨.binding, s.bsc.record.routine, [.startUp]⟩

/-- An envelope found for a range that loaded undefined, or for an ERASED range or tail (R84, R147, R186). -/
def State.stale (s : State) (e : Envelope) : Bool :=
  if h : e.range.val < 17 then !s.isDefined ⟨e.range.val, h⟩ || s.rrs.ranges[e.range.val].cfg.erased
  else s.rrs.tailErased

/-- An envelope found at a place above another of the same owner and range. Only a table without an empty place can lead to one
(R84; DESIGN CHOICE, log 22). -/
def State.doubled (s : State) (p : Fin 64) : Bool :=
  (s.aut.envelopes[p]).any fun e => (s.placesOf fun f => f.isFor e.owner e.range).any fun q => decide (q < p)

/-- The resumption of an erase and the deletion of stale envelopes (R138, R147): the deletions are queued first, then writes 2
and 3 (DESIGN CHOICE, log 51). -/
def State.resumeErase (s : State) : State :=
  let set := s.wsq.wipe.eraseSet
  let resumes := set != 0 || s.wsq.wipe.state == .erasing
  let inSet := s.placesOf fun e => s.stale e && set.getLsbD e.range.val
  let others := s.placesOf fun e => s.stale e && !set.getLsbD e.range.val
  let doubles := (List.finRange 64).filter s.doubled
  let s := { s with aut.envelopes := tab fun p => if s.doubled p then none else s.aut.envelopes[p] }.dropEnvelopes s.stale
  let s := s.queueRecords ((others ++ doubles).map .envelope) []
  if resumes then
    let s := { s with wsq.eraseStage := .writing }
    ((s.queueRecords (inSet.map .envelope) [.erase]).queueRecords ((members set).map rangeRecord) [.erase]).progressWipe
  else s

/-- A tail made DESTROYED for want of its DEVICE envelope is persisted ERASED (R28). -/
def State.persistTail (s : State) : State :=
  if s.rrs.tailErased ∧ !(s.cfs.nv.tail.load true) ∧ !s.wsq.wipe.eraseSet.getLsbD 17 then s.queueRecord .tail [] else s

/-- The flag of keys lost with the main supply (R161). -/
def State.retentionLost (s : State) (lost : Bool) : State := if lost then s.raise .retentionExpired else s

/-- POWER_ON (R101). The store writes of step 5, whose order R101 and R190 leave open, are queued in this order: the tail
record, the stale envelopes, the erase set, the actions started (DESIGN CHOICE, log 51). -/
def execPowerOn (retentionKept landed : Bool) (corrupt : List Record) (s : State) : Host.Outcome State Fault Refusal :=
  let b := (s.built (s.cfs.atPowerOn landed corrupt)).retentionLost (retentionKept && !s.rtb.retained.isEmpty)
  .next ((((b.loadFaults.latchBlocked.deadStartStep).startUpMeasurement.persistTail).resumeErase).evaluate).settle

end Sys2Proof.Machine
end

