-- ==== Sys2Proof/Machine/Dispatch.lean ====
section
/-! DEFINITION. One arm per command of the opcode table, each one call of its meaning. -/

namespace Sys2Proof.Machine

def exec (i : Instr) (s : State) : Host.Outcome State Fault Refusal :=
  match i with
  | .powerOn a b c => Sys2Proof.Machine.execPowerOn a b c s
  | .frameCheckFail p b f => Sys2Proof.Machine.execFrameCheckFail p b f s
  | .read t a n f => Sys2Proof.Machine.execRead t a n s f
  | .write t a n f => Sys2Proof.Machine.execWrite t a n s f
  | .trim t a n f => Sys2Proof.Machine.execTrim t a n s f
  | .flush t f => Sys2Proof.Machine.execFlush t s f
  | .pass t a n p f => Sys2Proof.Machine.execPass t a n p s f
  | .identify t f => Sys2Proof.Machine.execIdentify t s f
  | .secSend t n f => Sys2Proof.Machine.execSecSend t n s f
  | .secRecv t n f => Sys2Proof.Machine.execSecRecv t n s f
  | .frontData t b x f => Sys2Proof.Machine.execFrontData t b x s f
  | .frontAbort t f => Sys2Proof.Machine.execFrontAbort t s f
  | .sleep f => Sys2Proof.Machine.execSleep s f
  | .wake f => Sys2Proof.Machine.execWake s f
  | .linkReset f => Sys2Proof.Machine.execLinkReset s f
  | .mediaData t b x f => Sys2Proof.Machine.execMediaData t b x s f
  | .mediaStat t a c f => Sys2Proof.Machine.execMediaStat t a c s f
  | .mediaGrant t n f => Sys2Proof.Machine.execMediaGrant t n s f
  | .mediaAbort t f => Sys2Proof.Machine.execMediaAbort t s f
  | .mediaTimeout t => Sys2Proof.Machine.execMediaTimeout t s
  | .quiesceTimeout t => Sys2Proof.Machine.execQuiesceTimeout t s
  | .dataTimeout t => Sys2Proof.Machine.execDataTimeout t s
  | .commandComplete t => Sys2Proof.Machine.execCommandComplete t s
  | .frontGrant => Sys2Proof.Machine.execFrontGrant s
  | .readGrant => Sys2Proof.Machine.execReadGrant s
  | .sectorDelivery t => Sys2Proof.Machine.execSectorDelivery t s
  | .stagedSectorSend t => Sys2Proof.Machine.execStagedSectorSend t s
  | .mediaArbiterIssue => Sys2Proof.Machine.execMediaArbiterIssue s
  | .chunkOffer => Sys2Proof.Machine.execChunkOffer s
  | .verifyStart => Sys2Proof.Machine.execVerifyStart s
  | .verifyEnd => Sys2Proof.Machine.execVerifyEnd s
  | .replyReady => Sys2Proof.Machine.execReplyReady s
  | .storeWriteDone r => Sys2Proof.Machine.execStoreWriteDone r s
  | .sleepEntered => Sys2Proof.Machine.execSleepEntered s
  | .retentionExpiry => Sys2Proof.Machine.execRetentionExpiry s
  | .zeroingEnd => Sys2Proof.Machine.execZeroingEnd s
  | .integratingEnd => Sys2Proof.Machine.execIntegratingEnd s
  | .deintegratingEnd d => Sys2Proof.Machine.execDeintegratingEnd d s
  | .queryStatus => Sys2Proof.Machine.execQueryStatus s
  | .readEvents => Sys2Proof.Machine.execReadEvents s
  | .setNoteMask => Sys2Proof.Machine.execSetNoteMask s
  | .unlock => Sys2Proof.Machine.execUnlock s
  | .lock => Sys2Proof.Machine.execLock s
  | .bootDone => Sys2Proof.Machine.execBootDone s
  | .setAuthority => Sys2Proof.Machine.execSetAuthority s
  | .setCredential => Sys2Proof.Machine.execSetCredential s
  | .resetAuthority => Sys2Proof.Machine.execResetAuthority s
  | .setDeadstart => Sys2Proof.Machine.execSetDeadstart s
  | .defineRanges => Sys2Proof.Machine.execDefineRanges s
  | .modifyPolicy => Sys2Proof.Machine.execModifyPolicy s
  | .setBootWindow => Sys2Proof.Machine.execSetBootWindow s
  | .bootImageWrite => Sys2Proof.Machine.execBootImageWrite s
  | .measureBay => Sys2Proof.Machine.execMeasureBay s
  | .enrollBay => Sys2Proof.Machine.execEnrollBay s
  | .setBindPolicy => Sys2Proof.Machine.execSetBindPolicy s
  | .setResponse => Sys2Proof.Machine.execSetResponse s
  | .ackSources => Sys2Proof.Machine.execAckSources s
  | .wipe => Sys2Proof.Machine.execWipe s
  | .rekey => Sys2Proof.Machine.execRekey s
  | .setFlow => Sys2Proof.Machine.execSetFlow s
  | .setRetention => Sys2Proof.Machine.execSetRetention s
  | .frameSend p => Sys2Proof.Machine.execFrameSend p s

end Sys2Proof.Machine
end

