-- ==== Sys2Proof/Machine/Step.lean ====
section
/-! DEFINITION. One step of the block: the oldest waiting command, or one period of the count clock. -/

namespace Sys2Proof.Machine

/-- With no command waiting, one period of the 65,536 Hz count clock passes (log 2). -/
def State.tick (s : State) : State := s.advance (s.clock + countUnits)

/-- One step: the command at the front of the queue with the queue's rest, or the tick. -/
def step (s : State) : Host.Outcome State Fault Refusal :=
  match s.pending with
  | [] => .next s.tick
  | c :: cs => exec c { s with pending := cs }

/-- `s` with the command that a word spells put at the front of its queue; `s` itself where it spells none. -/
def State.withFetchWord (s : State) (nbits w : Nat) : State :=
  match decodeTableWord nbits w with
  | some c => { s with pending := c :: s.pending }
  | none => s

end Sys2Proof.Machine
end

