-- ==== Sys2Proof/Safety.lean ====
section
/-! DEFINITION. The terms in which claims are stated: frames block by block, what a handled request leaves in the Management
Channel, segment lists that cover an extent, frames a port takes, and the invariants of the machine. -/

namespace Sys2Proof.Machine

/-! ### Frames -/

/-- The parts of State. -/
inductive Block where
  | fcp | mcp | rrs | cph | cxm | stg | flow | mar | aut | bsc | rsp | wsq | rtb | mgc | cfs | clock | draws | pending
  deriving DecidableEq, Repr

/-- A part of State is the same in two states. -/
def Block.Same (s t : State) : Block → Prop
  | .fcp => t.fcp = s.fcp | .mcp => t.mcp = s.mcp | .rrs => t.rrs = s.rrs | .cph => t.cph = s.cph
  | .cxm => t.cxm = s.cxm | .stg => t.stg = s.stg | .flow => t.flow = s.flow | .mar => t.mar = s.mar
  | .aut => t.aut = s.aut | .bsc => t.bsc = s.bsc | .rsp => t.rsp = s.rsp | .wsq => t.wsq = s.wsq
  | .rtb => t.rtb = s.rtb | .mgc => t.mgc = s.mgc | .cfs => t.cfs = s.cfs | .clock => t.clock = s.clock
  | .draws => t.draws = s.draws | .pending => t.pending = s.pending

/-- Every part of State outside a list is the same in two states. -/
def OnlyChanges (bs : List Block) (s t : State) : Prop := ∀ b, b ∉ bs → b.Same s t

/-! ### What commands leave behind -/

/-- The reply of a request is formed, and its credential is gone (R178, R179). -/
def Answered (u : State) (id : Nat) (r : Reply) : Prop := ∃ v, u.work id = some v ∧ v.stage = .finishing r ∧ v.cred = none

/-- A request answered, and nothing else of the Management Channel changed. -/
def Replied (s u : State) (id : Nat) (r : Reply) : Prop :=
  Answered u id r ∧ u.mgc = { s.mgc with works := u.mgc.works } ∧ ∀ j, j ≠ id → u.work j = s.work j

/-- The envelopes that a test selects are where they were. -/
def KeepsEnvelopes (s u : State) (which : Envelope → Prop) : Prop :=
  ∀ (p : Fin 64) (e : Envelope), s.aut.envelopes[p] = some e → which e → u.aut.envelopes[p] = some e

/-- The parts of State that an action or an erase order started may change (R124, R136). -/
def actionBlocks : List Block := [.fcp, .mcp, .rrs, .cph, .cxm, .stg, .mar, .aut, .rsp, .wsq, .rtb, .mgc, .cfs]

/-- The store holds a write of a record for a request (R187, R189). -/
def Stores (u : State) (id : Nat) (r : Record) : Prop :=
  ∃ e ∈ u.storeEntries, e.record = r ∧ Writer.request id ∈ e.writers

/-- A frame that was received and discarded: only the port's framer notices it (R163, R168, R169). -/
def Discarded (p : Port) (after : Framer) (s u : State) : Prop :=
  u = match p with
    | .front => { s with fcp.framer := after }
    | .media => { s with mcp.framer := after }

/-- A CMD on a free front tag that is refused: its STAT is sent and nothing else happens but the start of the tag's sequence
state (R46, R47, R167). -/
def Refused (c : Instr) (after : Framer) (s : State) (t : Fin 32) (st : FrontStatus) : Prop :=
  exec c s = .next (State.settle { s with fcp :=
    { s.fcp with
      framer := after
      seq := s.fcp.seq.set t SeqState.start
      sendOrder := s.fcp.sendOrder ++ [⟨.stat (frontByte t) st.toByte 0, none⟩] } })

/-- The parts of a segment record that its resolution fixes (R20). -/
def Segment.shape (g : Segment) : Option Extent × Option Nat × Option Treatment × Option (Fin 18) × Bool :=
  (g.extent, g.mediaStart, g.treatment, g.slot, g.uses)

/-- The segments of a list that hold a use of a slot. -/
def usesIn (segs : List Segment) (i : Fin 18) : Nat := (segs.filter fun g => g.uses && g.slot == some i).length

/-- A READ, WRITE or TRIM taken on a free tag (R46, R47, R20): its context, its uses, and the other contexts and keys as they
were. -/
def Taken (s u : State) (t : Fin 32) (after : Framer) (op : Opcode) (start : BitVec 48) (count : BitVec 16)
    (segs : List Segment) (c : Context) : Prop :=
  u.ctx t = some c ∧ (∀ v, v ≠ t → u.ctx v = s.ctx v) ∧
  c.opcode = op ∧ c.start = some start.toNat ∧ c.count = some (sectorCount count) ∧ c.done = 0 ∧ c.status = .good ∧
  c.grants = [] ∧ c.segs.map Segment.shape = segs.map Segment.shape ∧
  u.fcp = { s.fcp with framer := after, seq := s.fcp.seq.set t SeqState.start } ∧ u.cph.held = s.cph.held ∧
  ∀ i : Fin 18, u.cph.slots[i].key = s.cph.slots[i].key ∧ u.cph.slots[i].uses = s.cph.slots[i].uses + usesIn segs i

/-- The ready queue once the MEDIA segments of a command joined it, but for those whose tag is quiescing (R47, R78). -/
def State.readyWith (s : State) (t : Fin 32) (segs : List Segment) : List (Fin 130) :=
  s.mar.ready ++ (((List.range segs.length).filter fun i =>
    (segs[i]?).any Segment.onMedia && !s.quiescing (hostTag t i)).map (hostTag t))

/-- The media tags of a context's segments. -/
def Context.segTags (c : Context) (t : Fin 32) : List (Fin 130) :=
  ((List.range 4).filter fun i => decide (i < c.segs.length)).map (hostTag t)

/-- The media tags on which giving up a context sends an ABORT: those whose issued command has not settled (R60 step 4,
R65). -/
def State.tagsToAbort (s : State) (t : Fin 32) (c : Context) : List (Fin 130) :=
  (c.segTags t).filter fun m => s.mar.issued.contains m && !s.quiescing m

/-- A lane whose command was given up at a time: no credit, no reserved place, no media timer, and quiescing (R58, R72). -/
def Lane.givenUp (l : Lane) (now : Nat) : Lane :=
  { l with credit := 0, reserved := 0, timer := none, quiesce := some (now + 8000 * 8192) }

/-- A context given up with a status (R60): freed with its STAT if none of its media tags quiesces then, else in ABORTING with
its uses and grants gone. An ABORT goes down on each tag whose command is issued, which quiesces; the other tags of its segments
lose their write credit (R71, R72); the queued segments leave the ready queue; the lanes of other tags, 128 and 129 among them, are
untouched. The staged and held sectors are gone, the context left
the grant order, and no key changed but for the seal on last use (R27). -/
def GivenUp (s u : State) (t : Fin 32) (c : Context) (st : FrontStatus) : Prop :=
  (u.ctx t = none ↔ ∀ m ∈ c.mediaTags t, u.quiescing m = false) ∧
  u.mcp.sendOrder = s.mcp.sendOrder ++ (s.tagsToAbort t c).map (fun m => .abort (mediaByte m)) ∧
  (∀ m : Fin 130, u.mcp.lanes[m] =
    if m ∈ s.tagsToAbort t c then (s.mcp.lanes[m]).givenUp u.clock
    else if m ∈ c.segTags t then { s.mcp.lanes[m] with credit := 0 }
    else s.mcp.lanes[m]) ∧
  u.mar = { s.mar with
    ready := s.mar.ready.diff (c.segTags t)
    issued := s.mar.issued.diff (s.tagsToAbort t c) } ∧
  (match u.ctx t with
    | none => u.fcp.sendOrder = s.fcp.sendOrder ++ [⟨.stat (frontByte t) st.toByte 0, none⟩]
    | some c => u.fcp.sendOrder = s.fcp.sendOrder ∧ c.state = .aborting ∧ c.status = st ∧ c.grants = [] ∧
        c.ungranted = 0 ∧ ∀ g ∈ c.segs, g.uses = false) ∧
  (∀ v, v ≠ t → u.ctx v = s.ctx v) ∧
  u.stg.staged = (s.stg.staged.filter fun x => !tagOf t x.tag) ∧ u.stg.grantOrder = s.stg.grantOrder.erase t ∧
  u.cph.held = (s.cph.held.filter fun x => !tagOf t x.tag) ∧
  (∀ i : Fin 18, u.cph.slots[i].key = s.cph.slots[i].key ∨ u.cph.slots[i].key = .sealed) ∧
  OnlyChanges [.fcp, .cxm, .cph, .mcp, .mar, .stg, .mgc, .clock] s u

/-- The segment of a DRAINING tag fails again, by an overrun or a media ABORT (R57, R72, R74, R75; log 16): MEDIA_FAULT is set and its
error becomes MEDIA_ERROR code 0. It drains on while front data is owed to it. The lane of its tag is as given, some frames went
down, and no other lane, no other context and nothing of the Media Arbiter changed. -/
def FailedAgain (s u : State) (m : Fin 130) (after : Framer) (lane : Lane) (sent : List Frame) : Prop :=
  (∀ t i x g, s.segAt m = some (t, i, x, g) →
    (∃ x', u.ctx t = some x' ∧ x'.state = x.state ∧ x'.segs[i]? = some { g with
      uses := false
      error := some (.media 0)
      phase := if g.received x < g.len x then .draining else .failed }) ∧
    ∀ v, v ≠ t → u.ctx v = s.ctx v) ∧
  u.mcp = { s.mcp with
    framer := after
    lanes := s.mcp.lanes.set m lane
    sendOrder := s.mcp.sendOrder ++ sent } ∧
  u.mar = s.mar ∧ u.mgc = { s.mgc with flags := s.mgc.flags ||| 0x0200 } ∧
  OnlyChanges [.mcp, .cxm, .cph, .stg, .mgc] s u

/-- A tag in use only because the segment of its WRITE is DRAINING (R45, R72). -/
abbrev State.DrainsOnly (s : State) (m : Fin 130) : Prop :=
  s.draining m = true ∧ s.mar.issued.contains m = false ∧ s.quiescing m = false ∧ ((s.segAt m).any fun x => x.2.2.1.opcode == .write) = true

/-! ### Segment lists (R17, R20) -/

/-- The slot that the sector at a presented LBA belongs to: the tail's inside the active window, else its range's (R16, R17). -/
def State.slotAt (s : State) (x : Nat) : Fin 18 :=
  if s.windowActive = true ∧ x < s.rrs.window.w then tailSlot else rangeSlot (ownerOf s.userExtents x)

/-- A range is locked in the direction of a command (R18). -/
def State.lockedFor (s : State) (isRead : Bool) (r : Fin 17) : Bool :=
  if isRead then s.rrs.ranges[r].readLocked else s.rrs.ranges[r].writeLocked

/-- What is locked in a range is concealed: never in range 0 (R18, R127). -/
def State.concealed (s : State) (r : Fin 17) : Bool :=
  r != 0 && (s.rrs.ranges[r].cfg.policy.conceal || s.concealment)

/-- A slot refuses a command LOCKED (R18, R26): its range or tail is ACTIVE, and it is locked in the direction and not concealed,
or not locked and has no LIVE key. -/
def State.refusesLocked (s : State) (isRead : Bool) (i : Fin 18) : Prop :=
  s.isErased i = false ∧
  ((∃ r, i = rangeSlot r ∧ s.lockedFor isRead r = true ∧ s.concealed r = false) ∨
    ((∀ r, i = rangeSlot r → s.lockedFor isRead r = false) ∧ s.cph.slots[i].isLive = false))

/-- Extents that follow one another without gap from `a` to `b`, none empty. -/
def Covers (a b : Nat) : List Extent → Prop
  | [] => a = b
  | e :: es => e.start = a ∧ 0 < e.len ∧ Covers (a + e.len) b es

/-! ### The end of a sweep (R145, R146) -/

/-- The only values that requests still have to queue are deletions of envelopes (R189). -/
def DeletesOnly (s : State) : Prop :=
  ∀ w ∈ s.mgc.works, ∀ ws ∈ w.later, ∀ r, Write.val r ∈ ws → ∃ p, r = .envelope p none

/-- A sweep has finished with the wipe record `x` (R145, R146): DONE with its outcome. A sweep that is not full queues the DONE
record at once. A full one leaves the store the record `was` that stood before, gives every try back and ends every throttle,
leaves the users and the ERASER UNSET without envelope and ADMIN not BLOCKED, overtakes the verifies in flight (R90), clears
ADMIN_BLOCKED, and queues the records of all that, its DONE record to follow them. -/
def SweepFinished (s u : State) (was x : WipeRec) : Prop :=
  let done : WipeRec := { x with state := .done, outcome := some (if x.errors = 0 then .complete else .incomplete) }
  u.wsq.wipe = done ∧
  if x.full = false then
    u.aut = s.aut ∧ u.rsp = s.rsp ∧ u.wsq.donePending = s.wsq.donePending ∧ u.wsq.unfinished = none ∧
    ∃ e ∈ u.storeEntries, Writer.sweepDone ∈ e.writers ∧
      e.record = .wipe (if u.wsq.eraseStage = .closing then { done with eraseSet := 0 } else done)
  else
    (∀ i : Fin 8, let a := s.aut.authorities[i]
      u.aut.authorities[i] =
        if i = 0 then { a with state := if a.state = .blocked then .enabled else a.state, remaining := a.limit }
        else { a with state := .unset, verifier := none, grants := 0, remaining := a.limit }) ∧
    (∀ i : Fin 8, u.aut.throttle[i] = none) ∧ u.aut.dead = s.aut.dead ∧
    (∀ p : Fin 64, u.aut.envelopes[p] =
      (s.aut.envelopes[p]).filter fun e => e.owner == .device || e.owner == .authority 0) ∧
    (∀ i : Fin 6, u.rsp.src.pending.getLsbD i.val = (s.rsp.src.pending.getLsbD i.val && i != 1)) ∧
    (∀ v ∈ u.mgc.works, v.inVerify = true → v.overtaken = true) ∧ u.wsq.donePending = true ∧
    u.wsq.unfinished = some was ∧
    (∀ i : Fin 8, ∃ e ∈ u.storeEntries, Writer.sweepEffects ∈ e.writers ∧
      e.record = .authority i u.aut.authorities[i].stored) ∧
    ∀ (p : Fin 64) (e : Envelope), s.aut.envelopes[p] = some e → e.ofUser = true →
      ∃ e ∈ u.storeEntries, Writer.sweepEffects ∈ e.writers ∧ e.record = .envelope p none

/-! ### The start of actions (R124, R125) -/

/-- A done mark lets an action hand on its erase order (R125). -/
def Hands (d : DoneMark) (a : Action) : Prop := a = .cryptoErase ∧ d = .none ∨ a = .fullWipe ∧ d ≠ .fullWipe

/-- Every defined range and the tail have been crypto-erased (R31, R124, R137). -/
def AllErased (s u : State) : Prop :=
  (∀ r : Fin 17, s.isDefined r = true → u.rrs.ranges[r].cfg.erased = true) ∧ u.rrs.tailErased = true ∧
  (∀ i : Fin 18, s.everything.getLsbD i.val = true → s.cph.slots[i].key ≠ .absent → u.cph.slots[i] = ⟨.destroyed, 0⟩) ∧
  (∀ (p : Fin 64) (e : Envelope), u.aut.envelopes[p] = some e → s.everything.getLsbD e.range.val = false) ∧
  ∀ t c (i : Fin 18), s.ctx t = some c → s.everything.getLsbD i.val = true → c.holds i = true →
    u.ctx t = none ∨ ∃ c', u.ctx t = some c' ∧ c'.state = .aborting

/-- The wipe record after the erase orders of actions were handed on, a FULL_WIPE among them or not (R136, R139, R140). A FULL_WIPE
whose configured method has no sweep is left out. -/
def ResponseOrdered (s u : State) (wipes : Prop) : Prop :=
  let x := s.wsq.wipe
  let y := u.wsq.wipe
  (∀ i : Fin 18, s.everything.getLsbD i.val = true → (y.eraseSet.getLsbD i.val || s.storedErased.getLsbD i.val) = true) ∧
  u.wsq.eraseStage = .writing ∧ u.wsq.chunkOut = s.wsq.chunkOut ∧
  (wipes → u.rsp.cfg.method ≠ .eraseOnly →
    y.state = (if x.state = .sweeping then .sweeping else .erasing) ∧ y.scope = s.everything ∧ y.method = u.rsp.cfg.method ∧
    y.full = true ∧ y.origin = some .response ∧ y.errors = 0 ∧
    y.cursor = (if x.state = .sweeping then some 0 else none) ∧
    (x.state = .sweeping → u.wsq.chunkStale = s.wsq.chunkOut.isSome)) ∧
  (¬wipes →
    if x.state = .idle ∨ x.state = .done then
      y.state = .erasing ∧ y.scope = s.everything ∧ y.method = .eraseOnly ∧ y.full = false ∧ y.origin = some .response ∧
        y.errors = 0 ∧ y.cursor = none ∧ y.outcome = none
    else y = { x with eraseSet := y.eraseSet })

/-- The actions that a relation names have started for their sources (R124, R125): one other than NOTE locks every defined range in
its enabled directions and sets ACTION_STARTED; CRYPTO_ERASE and FULL_WIPE hand their erase order on where the source's done mark
lets them, which then becomes the action; NOTE alone, or an order that the mark skips, erases nothing. -/
def ActionsStarted (s u : State) (started : Fin 6 → Action → Prop) : Prop :=
  let acts : Prop := ∃ i a, started i a ∧ a ≠ .note
  let hands (i : Fin 6) (a : Action) : Prop := started i a ∧ Hands s.rsp.src.marks[i] a
  (acts → u.mgc.flags &&& 0x0008 ≠ 0 ∧ ∀ r : Fin 17, s.isDefined r = true →
    u.rrs.ranges[r].readLocked = (s.rrs.ranges[r].readLocked || s.rrs.ranges[r].cfg.policy.readEn) ∧
    u.rrs.ranges[r].writeLocked = (s.rrs.ranges[r].writeLocked || s.rrs.ranges[r].cfg.policy.writeEn)) ∧
  (¬acts → u.rrs = s.rrs ∧ u.cph = s.cph ∧ u.mgc.flags = s.mgc.flags) ∧
  (∀ i a, hands i a → u.rsp.src.marks[i] = if a = .fullWipe then .fullWipe else .cryptoErase) ∧
  (∀ i : Fin 6, (¬∃ a, hands i a) → u.rsp.src.marks[i] = s.rsp.src.marks[i]) ∧
  ((∃ i a, hands i a) → AllErased s u ∧ ResponseOrdered s u (∃ i, hands i .fullWipe)) ∧
  ((¬∃ i a, hands i a) → u.wsq = s.wsq ∧ u.aut = s.aut ∧ u.cxm = s.cxm ∧
    ∀ r : Fin 17, u.rrs.ranges[r].cfg = s.rrs.ranges[r].cfg)

/-! ### Frames a port takes (R163) -/

/-- A frame that its sender may send to a port: of a class the port takes, its tag and its fields with values that 10.6
defines. -/
def Frame.legal (p : Port) (f : Frame) : Prop :=
  takesInbound p f.classCode = true ∧ tagAllowed p f.classCode f.tag = true ∧
  match f with
  | .stat _ status _ => status.toNat ≤ 1
  | .grant _ count => count ≠ 0
  | _ => True

/-! ### Invariants -/

/-- A live lock flag is on only where its lock enable is on (R5). -/
def LockInv (s : State) : Prop :=
  ∀ r : Fin 17, (s.rrs.ranges[r].readLocked = true → s.rrs.ranges[r].cfg.policy.readEn = true) ∧
    (s.rrs.ranges[r].writeLocked = true → s.rrs.ranges[r].cfg.policy.writeEn = true)

/-- The store queue holds at most 8 entries, writes wait only behind a full queue, a record is named once in the two
lists, and a head entry is left unstarted only by a write in progress or a pause (R187, R190). -/
def StoreInv (s : State) : Prop :=
  s.cfs.queue.length ≤ 8 ∧ (s.cfs.waiting ≠ [] → s.cfs.queue.length = 8) ∧
  ((s.cfs.queue ++ s.cfs.waiting).map fun e => e.record.id).Nodup ∧
  (s.cfs.writing = none → s.cfs.queue ≠ [] → s.storePaused = true)

/-- The segments that hold a use of a slot (R25). -/
def State.usesHeld (s : State) (i : Fin 18) : Nat :=
  (s.cxm.contexts.toList.map fun c => match c with
    | some c => usesIn c.segs i
    | none => 0).sum

/-- Only an unsettled MEDIA segment with a slot holds a use (R20, R25). -/
def Segment.UseOk (g : Segment) : Prop :=
  g.uses = true → g.treatment = some .media ∧ g.slot.isSome = true ∧
    (g.phase = .pending ∨ g.phase = .queued ∨ g.phase = .issued ∨ g.phase = .discarding)

/-- The use count of each slot is the number of segments that hold a use of it, no ABSENT slot is in use, a context has
at most 4 segments, and one in ABORTING holds no use (R20, R25, R60). -/
def UsesInv (s : State) : Prop :=
  (∀ i : Fin 18, s.cph.slots[i].uses = s.usesHeld i) ∧
  (∀ i : Fin 18, s.cph.slots[i].key = .absent → s.cph.slots[i].uses = 0) ∧
  ∀ t c, s.ctx t = some c → c.segs.length ≤ 4 ∧ ∀ g ∈ c.segs, g.UseOk ∧ (c.state = .aborting → g.uses = false)

/-- Staged sectors and outstanding write grants together fit the staging buffer's 64 places; a context in the grant order has
sectors to be granted; no empty grant is outstanding. Only WRITE and SEC_SEND contexts that are not in ABORTING hold grants or
ungranted sectors, and theirs are the sectors of the command that have not come (R53, R60, R66, R68, R69). -/
def CreditInv (s : State) : Prop :=
  s.stg.staged.length + s.writeGrants ≤ 64 ∧ s.stg.grantOrder.Nodup ∧
  (∀ t ∈ s.stg.grantOrder, ∃ c, s.ctx t = some c ∧ 0 < c.ungranted) ∧
  ∀ t c, s.ctx t = some c →
    (∀ g ∈ c.grants, 0 < g.missing) ∧ (c.opcode = .secSend → c.count = some 1) ∧
    if (c.opcode = .write ∨ c.opcode = .secSend) ∧ c.state ≠ .aborting then some (c.done + c.credit + c.ungranted) = c.count
    else c.grants = [] ∧ c.ungranted = 0

/-- The media timer of an issued tag runs exactly while the tag does not wait on the bridge (R56). -/
def TimerInv (s : State) : Prop :=
  ∀ m ∈ s.mar.issued, s.mcp.lanes[m].timer = none ↔ s.waitsOnBridge m = true

/-- The Management Channel (R174): WORKING exactly while one request that is not detached is worked; REPLY_READY with a held
reply; IDLE with none and no mark; a reply held beside a request in work is marked for delivery. The serial numbers of
the works differ. -/
def ChannelInv (s : State) : Prop :=
  (s.mgc.works.filter fun w => !w.detached).length = (if s.mgc.channel = .working then 1 else 0) ∧
  (s.mgc.channel = .replyReady → s.mgc.heldReply.isSome = true) ∧
  (s.mgc.channel = .idle → s.mgc.heldReply = none ∧ s.mgc.mark = none) ∧
  (s.mgc.channel = .working → (s.mgc.heldReply.isSome = true ↔ s.mgc.mark.isSome = true)) ∧
  (s.mgc.works.map Work.id).Nodup ∧ ∀ w ∈ s.mgc.works, w.id < s.mgc.nextId

/-- While C is present the stored layout fits it: the window and every user range end below it (R2, R7, R14). -/
def LayoutInv (s : State) : Prop := ∀ c, s.rrs.capacity = some c → s.layoutFits c = true

/-- An extent whose start and length are multiples of 8, the length at least 8 (R4). -/
def Extent.Aligned (e : Extent) : Prop := e.start % 8 = 0 ∧ e.len % 8 = 0 ∧ 8 ≤ e.len

/-- The extents of user ranges do not overlap, and those that a test selects are aligned (R4). -/
def UserExtentsOk (extent : Fin 17 → Option Extent) (aligned : Fin 17 → Bool) : Prop :=
  (∀ (r : Fin 17) (e : Extent), r ≠ 0 → extent r = some e → aligned r = true → e.Aligned) ∧
  ∀ (r r' : Fin 17) (e e' : Extent), r ≠ 0 → r' ≠ 0 → r ≠ r' → extent r = some e → extent r' = some e' → e.overlaps e' = false

/-- The defined user ranges are aligned and do not overlap (R4, R7). -/
def ExtentInv (s : State) : Prop := UserExtentsOk (fun r => s.rrs.ranges[r].cfg.extent) fun _ => true

/-- The effective action of each source is the one that its level, the enables and ARMED give it (R123). -/
def EffectiveInv (s : State) : Prop := ∀ i : Fin 6, s.rsp.effective[i] = s.effectiveOf i

/-- The seal on last use (R25, R27): a range locked in both directions keeps a LIVE slot only while a use of it is counted. With it
go what it leans on: no retained key is of a range locked in both directions (R156), and a request that may yet unlock names a
direction (R93). -/
def SealInv (s : State) : Prop :=
  (∀ r : Fin 17, s.rrs.ranges[r].lockedBoth = true → s.cph.slots[rangeSlot r].isLive = true →
    0 < s.cph.slots[rangeSlot r].uses) ∧
  (∀ e ∈ s.rtb.retained, s.rrs.ranges[e.range].lockedBoth = false) ∧
  ∀ w ∈ s.mgc.works, w.req.code = ReqKind.unlock.code → w.req.num 3 1 ≤ 2 ∨ ∃ r, w.stage = .finishing r

/-- While the bridge sleeps no context is in use and no request is being verified (R152). -/
def SleepInv (s : State) : Prop :=
  s.rtb.sleep ≠ .awake → (∀ t, s.ctx t = none) ∧ ∀ w ∈ s.mgc.works, w.inVerify = false

/-- A retention key is held exactly while keys are retained; none is retained while AWAKE or after the timer expired (R151,
R155, R158). -/
def RetainedInv (s : State) : Prop :=
  (s.rtb.retained = [] ↔ s.rtb.key = none) ∧
  (s.rtb.sleep = .awake → s.rtb.retained = []) ∧ (s.rtb.timer = .expired → s.rtb.retained = [])

/-- An ERASED range that is defined, or an ERASED tail, has its slot DESTROYED; an ABSENT slot is of an undefined range, whose slot
is ABSENT, or DESTROYED by an erase set at load; a retained key is of a defined ACTIVE range (R4, R28, R31, R147, R156). -/
def ErasedInv (s : State) : Prop :=
  (∀ r : Fin 17, s.isDefined r = true → s.rrs.ranges[r].cfg.erased = true → s.cph.slots[rangeSlot r].key = .destroyed) ∧
  (s.rrs.tailErased = true → s.cph.slots[tailSlot].key = .destroyed) ∧
  (∀ r : Fin 17, s.cph.slots[rangeSlot r].key = .absent → s.isDefined r = false) ∧
  (∀ r : Fin 17, s.isDefined r = false →
    s.cph.slots[rangeSlot r].key = .absent ∨ s.cph.slots[rangeSlot r].key = .destroyed) ∧
  s.cph.slots[tailSlot].key ≠ .absent ∧
  ∀ e ∈ s.rtb.retained, s.isDefined e.range = true ∧ s.rrs.ranges[e.range].cfg.erased = false

end Sys2Proof.Machine
end

