-- ==== Sys2Proof/Certificates/Slice0/Obligations.lean ====
section
/-! DEFINITION. The statements for the provers. A command that completes answers `.next u.settle`: `u` holds its effects, and
`settle` is what every such command ends with (the store starts the write it can, R187; media timers follow their waits, R56;
log 13). -/

open Sys2Proof Sys2Proof.Machine

/-! ### The queue of commands -/

/-- A step runs the oldest waiting command on the state with the queue's rest; with none waiting one count of the 65,536 Hz
clock passes. The tick is the model's choice (log 2). -/
def Obligations.StepRunsOldestCommand : Prop :=
  (∀ (c : Instr) (cs : List Instr) (s : State), s.pending = c :: cs → step s = exec c { s with pending := cs }) ∧
  ∀ s : State, s.pending = [] → step s = .next { s with clock := s.clock + 125 }

/-! ### Frames and ports (chapter 10) -/

/-- R162, R163, 10.6: a port reads a byte string as a frame exactly where the bytes are those of that frame and the frame is
one its sender may send to the port. -/
def Obligations.FrameCodecExact : Prop :=
  ∀ (p : Port) (bytes : List Byte) (f : Frame), parseFrame p bytes = some f ↔ f.legal p ∧ bytes = f.bytes

/-- R164: the register, its preset, its step for one byte, what it covers, how it is sent, that a frame passes only with an equal
CRC, and the whole frame of 10.6. -/
def Obligations.CrcRule : Prop :=
  crc16 [] = 0xFFFF#16 ∧
  (∀ (l : List Byte) (b : Byte), crc16 (l ++ [b]) =
    [7, 6, 5, 4, 3, 2, 1, 0].foldl
      (fun (r : BitVec 16) (i : Nat) => if (r.msb ^^ b.getLsbD i) = true then (r <<< 1) ^^^ 0x1021#16 else r <<< 1)
      (crc16 l)) ∧
  (∀ f : Frame, f.bytes =
    [f.classCode, ~~~f.classCode] ++ ([f.tag, f.flagsByte] ++ f.body) ++ be 2 (crc16 ([f.tag, f.flagsByte] ++ f.body)).toNat) ∧
  (∀ (p : Port) (bytes : List Byte) (f : Frame), parseFrame p bytes = some f →
    bytes.drop (bytes.length - 2) = be 2 (crc16 ((bytes.drop 2).take (bytes.length - 4))).toNat) ∧
  (Frame.abort 5).bytes = [0x55, 0xAA, 0x05, 0x00, 0xE2, 0xFA]

/-- R163, R165: a frame that fails a check sets LINK_FAULT and touches nothing else but the framer, which is IDLE after an end mark
and RECEIVING the next frame after a start mark; bytes that pass the checks are no such event. Each port sends the oldest frame
of its send order, whole, and nothing else changes.
The model's choices in it: log 1, 28, 32. -/
def Obligations.FailedFramesAndSending : Prop :=
  (∀ (p : Port) (bytes : List Byte) (after : Framer) (s : State),
    ((parseFrame p bytes).isSome = true → exec (.frameCheckFail p bytes after) s = .next s) ∧
    (parseFrame p bytes = none →
      exec (.frameCheckFail p bytes after) s = .next
        (let s' : State := { s with mgc.flags := s.mgc.flags ||| 0x0100 }
         match p with
         | .front => { s' with fcp.framer := after }
         | .media => { s' with mcp.framer := after }))) ∧
  ∀ s : State,
    (∀ f fs, s.fcp.sendOrder = f :: fs →
      exec (.frameSend .front) s = .next { s with fcp.sendOrder := fs, fcp.onLanes := some f.frame }) ∧
    (∀ f fs, s.mcp.sendOrder = f :: fs →
      exec (.frameSend .media) s = .next { s with mcp.sendOrder := fs, mcp.onLanes := some f }) ∧
    (s.fcp.sendOrder = [] → exec (.frameSend .front) s = .next s) ∧
    (s.mcp.sendOrder = [] → exec (.frameSend .media) s = .next s)

/-! ### Front commands (chapters 1 and 3) -/

/-- R46, R47, R19: which CMD frames on a free tag end at once, and with which status.
The model's choices in it: log 13. -/
def Obligations.CommandsRefusedAtOnce : Prop :=
  ∀ (s : State) (t : Fin 32) (op : Opcode) (start : BitVec 48) (count : BitVec 16) (params : BitVec 120)
      (after : Framer) (c : Instr),
    s.ctx t = none → commandOf after (.cmd (frontByte t) op start count params) = some c →
    (s.rtb.sleep ≠ .awake → Refused c after s t .notReady) ∧
    (s.rtb.sleep = .awake → s.rrs.capacity = none → op ∈ [Opcode.read, .write, .trim, .identify] →
      Refused c after s t .notReady) ∧
    (∀ v st, s.rtb.sleep = .awake → s.visible = some v → op ∈ [Opcode.read, .write, .trim] →
      s.resolve v (op == .read) start.toNat (sectorCount count) = .error st → Refused c after s t st) ∧
    (s.rtb.sleep = .awake → count ≠ 1 → op ∈ [Opcode.secSend, .secRecv] → Refused c after s t .badLength)

/-- R59 to R62: a CMD on a tag in use gives its context up with PROTOCOL, a front ABORT with ABORTED, a reached deadline with
DATA_TIMEOUT: an ABORT goes down on each issued tag, which quiesces, the other tags of its segments lose their write credit (R71,
R72), queued segments are withdrawn, and the STAT goes up when nothing quiesces. A context already in ABORTING only takes PROTOCOL from a colliding CMD. An ABORT on a free tag changes
nothing but the framer.
The model's choices in it: log 1, 2, 6, 37, and log 50 for the order of several ABORT frames. -/
def Obligations.ContextsAreGivenUp : Prop :=
  ∀ (s : State) (t : Fin 32) (after : Framer),
    (s.ctx t = none → exec (.frontAbort (frontByte t) after) s = .next (State.settle { s with fcp.framer := after })) ∧
    ∀ c, s.ctx t = some c →
      (c.state ≠ .aborting → c.segs.length ≤ 4 →
        (∀ op start count params i, commandOf after (.cmd (frontByte t) op start count params) = some i →
          ∃ u : State, exec i s = .next u.settle ∧ GivenUp s u t c .protocol ∧ u.fcp.framer = after ∧ u.clock = s.clock ∧
            u.mgc.flags &&& s.mgc.flags = s.mgc.flags) ∧
        (∃ u : State, exec (.frontAbort (frontByte t) after) s = .next u.settle ∧ GivenUp s u t c .aborted ∧
          u.fcp.framer = after ∧ u.clock = s.clock ∧ (s.mgc.mark ≠ some t → u.mgc = s.mgc)) ∧
        ∀ d, c.state = .awaitData → c.deadline = some d →
          ∃ u : State, exec (.dataTimeout (frontByte t)) s = .next u.settle ∧ GivenUp s u t c .dataTimeout ∧
            u.clock = max s.clock d ∧ (s.mgc.mark ≠ some t → u.mgc = s.mgc)) ∧
      (c.state = .aborting →
        (∀ op start count params i, commandOf after (.cmd (frontByte t) op start count params) = some i →
          exec i s = .next (State.settle { s with
            fcp.framer := after
            cxm.contexts := s.cxm.contexts.set t (some { c with status := .protocol }) })) ∧
        exec (.frontAbort (frontByte t) after) s = .next (State.settle { s with fcp.framer := after }) ∧
        exec (.dataTimeout (frontByte t)) s = .next s)

/-- R15 to R20, R26: a command is refused with the first of the five reasons that holds, in their order. Otherwise its segments
follow one another over exactly its extent, at most 4 of them, each in one range: FILL or ABSORB where the range is concealed and
locked in the command's direction, FILL for a READ of an ERASED range, else MEDIA, of an ACTIVE range open in the direction with a
LIVE slot. Segments that are FILL or ABSORB hold no use.
The model's choices in it: log 61 where user ranges overlap. -/
def Obligations.ResolutionCoversTheExtent : Prop :=
  ∀ (s : State) (v : Nat) (isRead : Bool) (start n : Nat), 0 < n →
    let touches (i : Fin 18) : Prop := ∃ x, start ≤ x ∧ x < start + n ∧ s.slotAt x = i
    let outOfRange := v < start + n
    let readOnly := isRead = false ∧ s.rrs.bootImageWrite = false ∧ touches tailSlot
    let fragmented := 4 < (s.pieces v start (start + n)).length
    let erased := isRead = false ∧ ∃ i, touches i ∧ s.isErased i = true
    let locked := ∃ i, touches i ∧ s.refusesLocked isRead i
    (∀ st, s.resolve v isRead start n = .error st ↔
      (outOfRange ∧ st = .outOfRange) ∨ (¬outOfRange ∧
        ((readOnly ∧ st = .windowReadOnly) ∨ (¬readOnly ∧
          ((fragmented ∧ st = .fragmented) ∨ (¬fragmented ∧
            ((erased ∧ st = .erased) ∨ (¬erased ∧ locked ∧ st = .locked)))))))) ∧
    ∀ segs, s.resolve v isRead start n = .ok segs →
      start + n ≤ v ∧ segs.length ≤ 4 ∧ (∃ es, segs.map Segment.extent = es.map some ∧ Covers start (start + n) es) ∧
      ∀ g ∈ segs, ∃ i e, g.slot = some i ∧ g.extent = some e ∧ (∀ x, e.start ≤ x → x < e.start + e.len → s.slotAt x = i) ∧
        (g.uses = true ↔ g.treatment = some .media) ∧
        (g.treatment = some .fill ↔ isRead = true ∧ (s.isErased i = true ∨
          ∃ r, i = rangeSlot r ∧ s.lockedFor isRead r = true ∧ s.concealed r = true)) ∧
        (g.treatment = some .absorb ↔ isRead = false ∧
          ∃ r, i = rangeSlot r ∧ s.lockedFor isRead r = true ∧ s.concealed r = true) ∧
        (g.treatment = some .media ↔ s.isErased i = false ∧ ∀ r, i = rangeSlot r → s.lockedFor isRead r = false) ∧
        (g.treatment = some .media → s.cph.slots[i].isLive = true ∧
          g.mediaStart = some (if i = tailSlot then v + e.start else e.start)) ∧
        (i = tailSlot → s.windowActive = true ∧ e.start + e.len ≤ s.rrs.window.w ∧
          (isRead = false → s.rrs.bootImageWrite = true))

/-- R46, R47, R48, R50, R20, R25, R68: a READ that resolves takes its context, its uses and its places in the ready queue; a WRITE
takes its context and its uses and waits for its data in the grant order.
The model's choices in it: log 30. -/
def Obligations.ReadsAndWritesAreTaken : Prop :=
  ∀ (s : State) (t : Fin 32) (start : BitVec 48) (count : BitVec 16) (after : Framer) (v : Nat) (segs : List Segment),
    s.ctx t = none → s.rtb.sleep = .awake → s.visible = some v →
    (s.resolve v true start.toNat (sectorCount count) = .ok segs →
      ∃ (u : State) (c : Context), exec (.read (frontByte t) start count after) s = .next u.settle ∧
        Taken s u t after .read start count segs c ∧
        c.state = (if segs.any Segment.onMedia then .mediaWait else .delivering) ∧ c.ungranted = 0 ∧
        u.mar = { s.mar with ready := s.readyWith t segs } ∧ OnlyChanges [.fcp, .cxm, .cph, .mar] s u) ∧
    (s.resolve v false start.toNat (sectorCount count) = .ok segs →
      ∃ (u : State) (c : Context), exec (.write (frontByte t) start count after) s = .next u.settle ∧
        Taken s u t after .write start count segs c ∧
        c.segs = segs ∧ c.state = .awaitData ∧ c.ungranted = sectorCount count ∧
        u.stg = { s.stg with grantOrder := s.stg.grantOrder ++ [t] } ∧ OnlyChanges [.fcp, .cxm, .cph, .stg] s u)

/-- R47, R49: a TRIM whose segments are all ABSORB ends GOOD at once; otherwise its MEDIA segments join the ready queue and
its ABSORB segments are DONE.
The model's choices in it: log 30. -/
def Obligations.TrimIsTaken : Prop :=
  ∀ (s : State) (t : Fin 32) (start : BitVec 48) (count : BitVec 16) (after : Framer) (v : Nat) (segs : List Segment),
    s.ctx t = none → s.rtb.sleep = .awake → s.visible = some v →
    s.resolve v false start.toNat (sectorCount count) = .ok segs →
    (segs.any Segment.onMedia = false → Refused (.trim (frontByte t) start count after) after s t .good) ∧
    (segs.any Segment.onMedia = true →
      ∃ (u : State) (c : Context), exec (.trim (frontByte t) start count after) s = .next u.settle ∧
        Taken s u t after .trim start count segs c ∧
        c.state = .mediaWait ∧ (∀ g ∈ c.segs, g.treatment = some .absorb → g.phase = .done) ∧
        u.mar = { s.mar with ready := s.readyWith t segs } ∧ OnlyChanges [.fcp, .cxm, .cph, .mar] s u)

/-- R51, R52, R170, R78: FLUSH, PASS and IDENTIFY are forwarded as one segment without extent.
The model's choices in it: log 37. -/
def Obligations.CommandsAreForwarded : Prop :=
  ∀ (s : State) (t : Fin 32) (after : Framer), s.ctx t = none → s.rtb.sleep = .awake →
    ∀ (c : Instr) (op : Opcode) (p : Option PassFields),
      ((c = .flush (frontByte t) after ∧ op = .flush ∧ p = none) ∨
        (∃ start count params, c = .pass (frontByte t) start count params after ∧ op = .pass ∧ p = some ⟨start, count, params⟩) ∨
        (c = .identify (frontByte t) after ∧ op = .identify ∧ p = none ∧ s.rrs.capacity.isSome = true)) →
      ∃ (u : State) (x : Context), exec c s = .next u.settle ∧ u.ctx t = some x ∧ (∀ v, v ≠ t → u.ctx v = s.ctx v) ∧
        x.opcode = op ∧ x.passed = p ∧ x.state = .mediaWait ∧ x.status = .good ∧ x.done = 0 ∧
        (∃ g, x.segs = [g] ∧ g.extent = none ∧ g.treatment = none ∧ g.uses = false ∧
          g.phase = if s.quiescing (hostTag t 0) then .pending else .queued) ∧
        u.mar = { s.mar with ready := s.mar.ready ++ if s.quiescing (hostTag t 0) then [] else [hostTag t 0] } ∧
        u.fcp = { s.fcp with framer := after, seq := s.fcp.seq.set t SeqState.start } ∧
        OnlyChanges [.fcp, .cxm, .mar] s u

/-- R46, R53, R68, R176: a SEC_SEND waits for one frame in the grant order; a SEC_RECV marks an unmarked held reply while
REPLY_READY, and otherwise gets a fresh PENDING (while WORKING) or NO_REQUEST record.
The model's choices in it: log 4, 5. -/
def Obligations.SecurityCommandsAreTaken : Prop :=
  ∀ (s : State) (t : Fin 32) (after : Framer), s.ctx t = none → s.rtb.sleep = .awake →
    (∃ u : State, exec (.secSend (frontByte t) 1 after) s = .next u.settle ∧
      u.ctx t = some { Context.fresh .secSend with count := some 1, state := .awaitData, ungranted := 1 } ∧
      u.fcp = { s.fcp with framer := after, seq := s.fcp.seq.set t SeqState.start } ∧
      (∀ v, v ≠ t → u.ctx v = s.ctx v) ∧ u.stg = { s.stg with grantOrder := s.stg.grantOrder ++ [t] } ∧
      OnlyChanges [.fcp, .cxm, .stg] s u) ∧
    ∃ u : State, exec (.secRecv (frontByte t) 1 after) s = .next u.settle ∧
      u.fcp = { s.fcp with framer := after, seq := s.fcp.seq.set t SeqState.start } ∧
      (∀ v, v ≠ t → u.ctx v = s.ctx v) ∧ OnlyChanges [.fcp, .cxm, .mgc] s u ∧
      let marks := s.mgc.channel = .replyReady ∧ s.mgc.mark = none
      u.mgc = (if marks then { s.mgc with mark := some t } else s.mgc) ∧
      u.ctx t = some { Context.fresh .secRecv with
        count := some 1
        state := .delivering
        record := if marks then none else if s.mgc.channel = .working then some Reply.pending else some Reply.noRequest }

/-! ### Front data (chapters 3, 4, 10, 11) -/

/-- R168: the first lines of the table, up to the frame that has no credit.
The model's choices in it: log 6, 37, and log 50 for the order of several ABORT frames. -/
def Obligations.FrontDataTestsInOrder : Prop :=
  ∀ (s : State) (t : Fin 32) (bit : Bool) (body : Sector) (after : Framer),
    let c := Instr.frontData (frontByte t) bit body after
    let crc := (Frame.data (frontByte t) bit body).crc
    let q := s.fcp.seq[t]
    (s.ctx t = none → exec c s = .next (State.settle
      { s with fcp.framer := after, mgc.flags := s.mgc.flags ||| 0x0100 })) ∧
    ∀ x, s.ctx t = some x →
      (x.state = .aborting → ∃ u : State, exec c s = .next u.settle ∧ Discarded .front after s u) ∧
      (x.state ≠ .aborting → q.stalled = true → ∃ u : State, exec c s = .next u.settle ∧ Discarded .front after s u) ∧
      (x.state ≠ .aborting → q.stalled = false → bit ≠ q.expected →
        (q.lastCrc = some crc → ∃ u : State, exec c s = .next u.settle ∧ Discarded .front after s u) ∧
        (q.lastCrc ≠ some crc → exec c s = .next (State.settle
          { s with
            fcp.framer := after
            fcp.seq := s.fcp.seq.set t { q with stalled := true }
            mgc.flags := s.mgc.flags ||| 0x0100 }))) ∧
      (x.state ≠ .aborting → q.stalled = false → bit = q.expected → x.credit = 0 → x.segs.length ≤ 4 →
        ∃ u : State, exec c s = .next u.settle ∧ GivenUp s u t x .protocol ∧ u.mgc.flags &&& 0x0100 ≠ 0)

/-- R48, R66, R67, R70, R168: an accepted frame of a WRITE is enciphered at its media LBA and staged where its segment waits
for it; the first one hands its segment over. In an ABSORB or DRAINING segment the frame takes no space, and the last one makes the
segment DONE or FAILED; with a DRAINING one that has FAILED goes the write credit of its tag (R45, R72).
The model's choices in it: log 8, 36. -/
def Obligations.WriteFrameIsStaged : Prop :=
  ∀ (s : State) (t : Fin 32) (bit : Bool) (body : Sector) (after : Framer) (c : Context) (i : Nat) (g : Segment),
    s.ctx t = some c → c.opcode = .write → c.state ≠ .aborting → s.fcp.seq[t].stalled = false →
    bit = s.fcp.seq[t].expected → c.credit ≠ 0 → c.segIndex c.done = some i → c.segs[i]? = some g →
    g.phase ∈ [Phase.pending, .queued, .issued, .active, .draining] →
    let last : Prop := c.done - g.offset c + 1 = g.len c
    ∃ (u : State) (c' : Context), exec (.frontData (frontByte t) bit body after) s = .next u.settle ∧
      u.ctx t = some c' ∧ (∀ v, v ≠ t → u.ctx v = s.ctx v) ∧
      c'.done = c.done + 1 ∧ c'.grants = consumeGrant c.grants ∧ c'.ungranted = c.ungranted ∧
      c'.state = (if some (c.done + 1) = c.count then .mediaWait else c.state) ∧
      c'.segs[i]? = some { g with phase := match g.phase with
        | .pending => if s.quiescing (hostTag t i) = true then .pending else .queued
        | .active => if last then .done else .active
        | .draining => if last then .failed else .draining
        | p => p } ∧
      u.fcp = { s.fcp with
        framer := after
        seq := s.fcp.seq.set t { s.fcp.seq[t] with
          expected := !s.fcp.seq[t].expected
          lastCrc := some (Frame.data (frontByte t) bit body).crc } } ∧
      OnlyChanges [.fcp, .cxm, .stg, .mar, .mcp] s u ∧
      u.mcp = (if g.phase = .draining ∧ last then
        { s.mcp with lanes := s.mcp.lanes.set (hostTag t i) { s.mcp.lanes[hostTag t i] with credit := 0 } }
      else s.mcp) ∧
      if g.phase ∈ [Phase.pending, .queued, .issued] then
        u.stg = { s.stg with
          staged := s.stg.staged ++ [⟨hostTag t i, c.done - g.offset c,
            tab fun j => Config.cipher (s.segKey g) (g.mediaStart.getD 0 + (c.done - g.offset c)) j body[j]⟩]
          hold := s.stg.hold || decide (s.flow.fwm ≤ s.stg.staged.length + 1) } ∧
        u.mar = { s.mar with
          ready := s.mar.ready ++ if g.phase = .pending ∧ s.quiescing (hostTag t i) = false then [hostTag t i] else [] }
      else u.stg = s.stg ∧ u.mar = s.mar

/-- R175 to R178, R182: the sector of a SEC_SEND while WORKING changes nothing in the channel and is answered BUSY; otherwise its
record becomes the request being worked, an unmarked held reply is discarded, and the channel, the authorities and the store are
then those that the examination of the request leaves (AdmissionInOrder).
The model's choices in it: log 5, 9. -/
def Obligations.RequestIsTaken : Prop :=
  ∀ (s : State) (t : Fin 32) (bit : Bool) (body : Sector) (after : Framer) (c : Context),
    s.ctx t = some c → c.opcode = .secSend → c.state ≠ .aborting → s.fcp.seq[t].stalled = false →
    bit = s.fcp.seq[t].expected → c.credit ≠ 0 →
    ∃ (u : State) (c' : Context), exec (.frontData (frontByte t) bit body after) s = .next u.settle ∧
      u.ctx t = some c' ∧ c'.done = c.done + 1 ∧ c'.grants = consumeGrant c.grants ∧
      (∀ v, v ≠ t → u.ctx v = s.ctx v) ∧
      u.fcp = { s.fcp with
        framer := after
        seq := s.fcp.seq.set t { s.fcp.seq[t] with
          expected := !s.fcp.seq[t].expected
          lastCrc := some (Frame.data (frontByte t) bit body).crc } } ∧
      if s.mgc.channel = .working then
        c'.status = .busy ∧ OnlyChanges [.fcp, .cxm] s u
      else
        let free := s.mgc.channel = .replyReady ∧ s.mgc.mark = none
        let x : State := { s with mgc :=
          { s.mgc with
            channel := .working
            heldReply := if free then none else s.mgc.heldReply
            works := s.mgc.works ++ [⟨s.mgc.nextId, (requestOf body).1, some (requestOf body).2, t, false, false, false,
              .ready, []⟩]
            nextId := s.mgc.nextId + 1
            flags := match s.mgc.heldReply with
              | some r => if free then s.mgc.flags ||| r.taken ||| 0x0800 else s.mgc.flags
              | none => s.mgc.flags } }
        let y := x.examine s.mgc.nextId (requestOf body).1
        c'.status = .good ∧ u.mgc = y.mgc ∧ u.aut = y.aut ∧ u.cfs = y.cfs ∧ OnlyChanges [.fcp, .cxm, .mgc, .aut, .cfs] s u

/-- R178, R86, R87, R91, R93: the examination of a request. A fault of form is refused with nothing changed; an authority that is
UNSET or DISABLED is NOT_PERMITTED, a BLOCKED one HALTED; an UNLOCK passes the gates of lockdown, of the awaited start-up result and
of a STRICT bay; a throttled authority is DEFERred; a free verify engine takes the request with one try less, the throttle cleared
and the lowered record on its way to the store, BLOCKED in it where no try is left.
The model's choices in it: log 9, 24, and log 54 and 65 for a throttle in STARTING or beside a verify in flight. -/
def Obligations.AdmissionInOrder : Prop :=
  ∀ (s : State) (id : Nat) (q : Request) (w : Work), s.work id = some w →
    let replies (r : Reply) : Prop := Replied s (s.examine id q) id r ∧ OnlyChanges [.mgc] s (s.examine id q)
    (ReqKind.ofByte q.code = none → replies (.refused q .badRequest [])) ∧
    ∀ k, ReqKind.ofByte q.code = some k →
      (∀ why, s.formFault k q = some why → replies (.refused q why [])) ∧
      (s.formFault k q = none → k.cls q = .none →
        (∃ v, (s.examine id q).work id = some v ∧ v.stage = .ready ∧ v.cred = none) ∧
          OnlyChanges [.mgc] s (s.examine id q)) ∧
      (s.formFault k q = none → k.cls q ≠ .none →
        let i := q.authority
        let a := s.aut.authorities[i]
        let lockGate := k = .unlock ∧ i ≠ 0 ∧ s.lockdown = true
        let waitGate := k = .unlock ∧ s.bsc.record.policy ≠ .off ∧ s.bsc.awaiting = true
        let bayGate := k = .unlock ∧ i ≠ 0 ∧ s.bsc.record.policy = .strict ∧ ∃ x, s.bsc.lastBay = some x ∧ x.cls ≠ .hit
        (a.state = .unset ∨ a.state = .disabled → replies (.refused q .notPermitted [])) ∧
        (a.state = .blocked → replies (.halted q)) ∧
        (a.state = .enabled →
          (lockGate → replies (.refused q .lockdown [])) ∧
          (¬lockGate → waitGate → replies (.defer q 100)) ∧
          (¬lockGate → ¬waitGate → bayGate → replies (.refused q .bayMismatch [])) ∧
          (¬lockGate → ¬waitGate → ¬bayGate →
            (∀ n, s.throttled i = some n → replies (.defer q n)) ∧
            (s.throttled i = none → s.engineInUse = true → replies (.defer q 100)) ∧
            (s.throttled i = none → s.engineInUse = false →
              (∃ v, (s.examine id q).work id = some v ∧ v.stage = .tentative ∧ v.cred = w.cred) ∧
              (s.examine id q).aut = { s.aut with
                authorities := s.aut.authorities.set i { a with remaining := a.remaining - 1 }
                throttle := s.aut.throttle.set i none } ∧
              Stores (s.examine id q) id
                (.authority i { a with
                  remaining := a.remaining - 1
                  state := if a.remaining - 1 = 0 then .blocked else .enabled }) ∧
              OnlyChanges [.mgc, .aut, .cfs] s (s.examine id q)))))

/-- R69, R59, R68: while hold is off the served context gets the smallest of 8, its ungranted sectors and the free credit, or 1
for a SEC_SEND; while hold is on nothing is granted. R40, R41: READ_GRANT grants the eligible command issued earliest what fits, at
most 8, and never reserves more than the return buffer has free; with no free place it grants nothing.
The model's choices in it: log 1. -/
def Obligations.CreditIsGranted : Prop :=
  ∀ s : State,
    (s.stg.hold = true → exec .frontGrant s = .next s) ∧
    (∀ (t : Fin 32) (c : Context), s.stg.hold = false →
      (s.stg.grantOrder.find? fun v => 0 < s.grantSize v) = some t → s.ctx t = some c →
      let n := if c.opcode = .secSend then 1 else min 8 (min c.ungranted (64 - s.stg.staged.length - s.writeGrants))
      ∃ u : State, exec .frontGrant s = .next u.settle ∧
        u.fcp = { s.fcp with sendOrder := s.fcp.sendOrder ++ [⟨.grant (frontByte t) (BitVec.ofNat 16 n), none⟩] } ∧
        u.ctx t = some { c with ungranted := c.ungranted - n, grants := c.grants ++ [⟨n, s.clock⟩] } ∧
        (∀ v, v ≠ t → u.ctx v = s.ctx v) ∧
        u.stg = { s.stg with
          grantOrder := if c.ungranted - n = 0 then s.stg.grantOrder.erase t else s.stg.grantOrder } ∧
        OnlyChanges [.fcp, .cxm, .stg] s u) ∧
    (s.freePlaces = 0 → exec .readGrant s = .next s) ∧
    ∀ m : Fin 130, s.freePlaces ≠ 0 → (s.mar.issued.find? fun n => 0 < s.ungrantedReads n) = some m →
      let n := min s.freePlaces (min 8 (s.ungrantedReads m))
      let l := s.mcp.lanes[m]
      ∃ u : State, exec .readGrant s = .next u.settle ∧ 0 < n ∧ n ≤ 8 ∧
        u.mcp = { s.mcp with
          sendOrder := s.mcp.sendOrder ++ [.grant (mediaByte m) (BitVec.ofNat 16 n)]
          lanes := s.mcp.lanes.set m { l with granted := l.granted + n, reserved := l.reserved + n } } ∧
        u.cph.held.length + (u.mcp.lanes.toList.map (·.reserved)).sum ≤ 8 ∧ OnlyChanges [.mcp] s u

/-- R37, R39, R42, R167, R176: what SECTOR_DELIVERY sends upstream: zeros for a FILL sector, the held plaintext for a MEDIA sector,
the marked reply or the waiting record for a SEC_RECV; each with the tag's outbound bit, which then inverts.
The model's choices in it: log 4. -/
def Obligations.SectorsGoUpstream : Prop :=
  ∀ (s : State) (t : Fin 32) (c : Context), s.ctx t = some c → c.state ≠ .aborting →
    let sends (u : State) (x : Sector) (r : Option (BitVec 13)) : Prop :=
      exec (.sectorDelivery (frontByte t)) s = .next u.settle ∧
      u.fcp = { s.fcp with
        sendOrder := s.fcp.sendOrder ++ [⟨.data (frontByte t) s.fcp.seq[t].outbound x, r⟩]
        seq := s.fcp.seq.set t { s.fcp.seq[t] with outbound := !s.fcp.seq[t].outbound } } ∧
      (∃ c', u.ctx t = some c' ∧ c'.done = c.done + 1 ∧ c'.state = .delivering ∧ c'.status = c.status) ∧
      ∀ v, v ≠ t → u.ctx v = s.ctx v
    (∀ i g, c.opcode = .read → c.segIndex c.done = some i → c.segs[i]? = some g →
      ((c.segs.take (i + 1)).any fun g => g.phase == .failed) = false →
      (g.treatment = some .fill → ∃ u : State, sends u zeroSector none ∧ OnlyChanges [.fcp, .cxm] s u) ∧
      (g.treatment ≠ some .fill → ∀ h, s.heldAt (hostTag t i) (c.done - g.offset c) = some h →
        ∃ u : State, sends u h.body none ∧ u.cph = { s.cph with held := s.cph.held.erase h } ∧
          OnlyChanges [.fcp, .cxm, .cph] s u)) ∧
    (∀ h, c.opcode = .identify → c.done = 0 → (c.segs.all fun g => g.phase != .failed) = true →
      s.heldAt (hostTag t 0) 0 = some h →
      ∃ u : State, sends u h.body none ∧ u.cph = { s.cph with held := s.cph.held.erase h } ∧ OnlyChanges [.fcp, .cxm, .cph] s u) ∧
    (∀ r, c.opcode = .secRecv → c.done = 0 → s.mgc.mark = some t → s.mgc.heldReply = some r →
      ∃ u : State, sends u r.sector (some r.taken) ∧
        u.mgc = { s.mgc with
          heldReply := none
          mark := none
          channel := if s.mgc.channel = .replyReady then .idle else s.mgc.channel } ∧ OnlyChanges [.fcp, .cxm, .mgc] s u) ∧
    (∀ r, c.opcode = .secRecv → c.done = 0 → s.mgc.mark ≠ some t → c.record = some r →
      ∃ u : State, sends u r.sector none ∧ OnlyChanges [.fcp, .cxm] s u)

/-- R53, R54, R55: a context completes when its front side is finished, all its segments are settled and none of its tags quiesces.
Its STAT is that of its lowest FAILED segment, or its own status. Any other context stays. The front side of a SEC_SEND answered
BUSY is finished with its frame, whatever is worked on its tag.
The model's choices in it: log 1, 5, 37. -/
def Obligations.CompletionSendsStatus : Prop :=
  ∀ (s : State) (t : Fin 32) (c : Context), s.ctx t = some c →
    (s.complete t c = false → exec (.commandComplete (frontByte t)) s = .next s) ∧
    (c.opcode = .secSend → c.done = 1 → c.status = .busy → s.frontFinished t c = true) ∧
    (c.state ≠ .aborting → s.frontFinished t c = true →
      (∀ g ∈ c.segs, g.phase = .done ∨ g.phase = .failed) → (∀ m ∈ c.mediaTags t, s.quiescing m = false) →
      let st : FrontStatus × BitVec 16 :=
        match c.segs.find? fun g => g.phase == .failed with
        | none => (c.status, if c.status = .mediaError then c.code else 0)
        | some g => match g.error with
          | some (.media code) => (.mediaError, code)
          | some .timeout => (.mediaTimeout, 0)
          | none => (.mediaError, 0)
      ∃ u : State, exec (.commandComplete (frontByte t)) s = .next u.settle ∧
        u.fcp = { s.fcp with sendOrder := s.fcp.sendOrder ++ [⟨.stat (frontByte t) st.1.toByte st.2, none⟩] } ∧
        u.ctx t = none ∧ (∀ v, v ≠ t → u.ctx v = s.ctx v) ∧ OnlyChanges [.fcp, .cxm] s u)

/-! ### Frames from the media, timers, the Media Arbiter (chapters 2, 3, 4, 8) -/

/-- R169, R76: the table, up to the frame that has no read credit, whose tag is given up (R74); the tag of a DRAINING segment is in
use, and its segment fails again there, its tag staying in the count as it quiesces (R57, R58, R72, R77).
The model's choices in it: log 16, 18. -/
def Obligations.MediaDataTestsInOrder : Prop :=
  ∀ (s : State) (m : Fin 130) (bit : Bool) (body : Sector) (after : Framer),
    let c := Instr.mediaData (mediaByte m) bit body after
    let crc := (Frame.data (mediaByte m) bit body).crc
    let l := s.mcp.lanes[m]
    (s.inUse m = false → ∃ u : State, exec c s = .next u.settle ∧ Discarded .media after s u) ∧
    (s.quiescing m = true → ∃ u : State, exec c s = .next u.settle ∧ Discarded .media after s u) ∧
    (s.inUse m = true → s.quiescing m = false → l.seq.stalled = true →
      ∃ u : State, exec c s = .next u.settle ∧ Discarded .media after s u) ∧
    (s.inUse m = true → s.quiescing m = false → l.seq.stalled = false → bit ≠ l.seq.expected →
      (l.seq.lastCrc = some crc → ∃ u : State, exec c s = .next u.settle ∧ OnlyChanges [.mcp] s u ∧
        u.mcp.lanes[m].seq = l.seq ∧ u.mcp.lanes[m].received = l.received) ∧
      (l.seq.lastCrc ≠ some crc → ∃ u : State, exec c s = .next u.settle ∧ OnlyChanges [.mcp, .mgc] s u ∧
        u.mcp.lanes[m] = { l with seq := { l.seq with stalled := true } } ∧
        u.mgc = { s.mgc with flags := s.mgc.flags ||| 0x0200 })) ∧
    (s.inUse m = true → s.quiescing m = false → l.seq.stalled = false → bit = l.seq.expected → l.readCredit = 0 →
      ∃ u : State, exec c s = .next u.settle ∧ u.mgc.flags &&& 0x0200 ≠ 0 ∧ u.quiescing m = true ∧
        Frame.abort (mediaByte m) ∈ u.mcp.sendOrder ∧ OnlyChanges actionBlocks s u) ∧
    (s.DrainsOnly m → l.seq.stalled = false → bit = l.seq.expected → l.readCredit = 0 →
      ∃ u : State, exec c s = .next u.settle ∧ u.outstanding = s.outstanding ∧
        FailedAgain s u m after (l.givenUp s.clock) [.abort (mediaByte m)])

/-- R36, R40, R42, R74, R1: an accepted media frame of an issued READ segment is deciphered at its media LBA and held, of an
IDENTIFY rewritten and held, of the own IDENTIFY read for its capacity, of a DISCARDING segment dropped.
The model's choices in it: log 18, 36. -/
def Obligations.MediaSectorIsHeld : Prop :=
  ∀ (s : State) (m : Fin 130) (bit : Bool) (body : Sector) (after : Framer),
    let l := s.mcp.lanes[m]
    s.mar.issued.contains m = true → s.quiescing m = false → l.seq.stalled = false → bit = l.seq.expected →
    l.readCredit ≠ 0 →
    ∃ u : State, exec (.mediaData (mediaByte m) bit body after) s = .next u.settle ∧
      u.mcp.lanes[m] = { l with
        received := l.received + 1
        reserved := l.reserved - 1
        timer := some (s.clock + 8000 * 8192)
        seq := { l.seq with expected := !l.seq.expected, lastCrc := some (Frame.data (mediaByte m) bit body).crc } } ∧
      (∀ n : Fin 130, n ≠ m → u.mcp.lanes[n] = s.mcp.lanes[n]) ∧ u.mcp.sendOrder = s.mcp.sendOrder ∧
      OnlyChanges [.mcp, .cph, .rrs] s u ∧
      match s.segAt m with
      | some (_, _, c, g) =>
        u.rrs = s.rrs ∧
        if g.phase ≠ .issued then u.cph = s.cph
        else if c.opcode = .identify then
          u.cph = { s.cph with held := s.cph.held ++ [⟨m, l.received,
            sectorPatch (sectorPatch body 200 (be 8 (s.visible.getD 0))) 222 [s.securityByte]⟩] }
        else
          u.cph = { s.cph with held := s.cph.held ++ [⟨m, l.received,
            tab fun j => (Config.cipher (s.segKey g) (g.mediaStart.getD 0 + l.received) j).symm body[j]⟩] }
      | none => u.cph = s.cph ∧
        u.rrs = if m = ownTag then { s.rrs with ownRecord := some (sectorField body 200 8) } else s.rrs

/-- R55, R75, R77: the media status of a host segment. Good with every sector exchanged it is DONE; an error, or a good status
with sectors missing (which sets MEDIA_FAULT), fails it, a WRITE that still has front data to come being DRAINING. The tag
leaves the outstanding count unless its segment drains, and the segment's use is released.
The model's choices in it: log 16, 68. -/
def Obligations.MediaStatusSettlesSegment : Prop :=
  ∀ (s : State) (m : Fin 130) (code : BitVec 16) (after : Framer) (t : Fin 32) (i : Nat) (c : Context) (g : Segment),
    s.mar.issued.contains m = true → s.quiescing m = false → s.segAt m = some (t, i, c, g) →
    let settles (status : Byte) (u : State) (phase : Phase) (error : Option SegError) : Prop :=
      exec (.mediaStat (mediaByte m) status code after) s = .next u.settle ∧
      (∃ c' g', u.ctx t = some c' ∧ c'.segs[i]? = some g' ∧ g'.phase = phase ∧ g'.error = error ∧ g'.uses = false) ∧
      (∀ v, v ≠ t → u.ctx v = s.ctx v) ∧
      u.mar = { s.mar with issued := s.mar.issued.erase m } ∧ u.quiescing m = false ∧
      u.mcp.lanes[m].credit = 0 ∧ u.mcp.lanes[m].timer = none ∧ u.mcp.lanes[m].reserved = 0 ∧
      u.inUse m = ((s.mar.issued.erase m).contains m ||
        (phase == .draining && c.state != .aborting && !s.mcp.lanes[m].quiesced)) ∧
      OnlyChanges [.mcp, .mar, .cxm, .cph, .stg, .mgc] s u
    let whenFailed : Phase :=
      if g.phase ≠ .discarding ∧ c.opcode = .write ∧ g.received c < g.len c then .draining else .failed
    (s.exchanged m c g = true → ∃ u : State, settles 0 u .done g.error ∧ u.mgc = s.mgc ∧ u.stg = s.stg) ∧
    (s.exchanged m c g = false →
      ∃ u : State, settles 0 u whenFailed (some (.media 0)) ∧ u.mgc = { s.mgc with flags := s.mgc.flags ||| 0x0200 }) ∧
    ∃ u : State, settles 1 u whenFailed (some (.media code)) ∧ u.mgc = s.mgc

/-- R1, R2, R56, R92: a good status after the own identity record offers its capacity, which becomes C where C is absent and the
layout fits; a bad status, a capacity out of 1..2^48, a media ABORT or a media timeout sets MEDIA_FAULT and queues the IDENTIFY
again, its reserved place free; after the timeout its tag was sent an ABORT and quiesces.
The model's choices in it: log 2, 18. -/
def Obligations.OwnIdentifyOffersCapacity : Prop :=
  ∀ (s : State) (code : BitVec 16) (after : Framer),
    s.mar.issued.contains ownTag = true → s.quiescing ownTag = false →
    let fails (i : Instr) (sent : List Frame) (u : State) : Prop :=
      exec i s = .next u.settle ∧ u.rrs = { s.rrs with ownRecord := none } ∧
        u.mar = { s.mar with identify := true, issued := s.mar.issued.erase ownTag } ∧
        u.mgc = { s.mgc with flags := s.mgc.flags ||| 0x0200 } ∧ u.mcp.sendOrder = s.mcp.sendOrder ++ sent ∧
        u.mcp.lanes[ownTag].reserved = 0 ∧ (∀ n : Fin 130, n ≠ ownTag → u.mcp.lanes[n] = s.mcp.lanes[n]) ∧
        OnlyChanges [.mcp, .mar, .rrs, .mgc, .clock] s u
    (∀ v, s.rrs.ownRecord = some v → 1 ≤ v → v ≤ 2 ^ 48 →
      ∃ u : State, exec (.mediaStat (mediaByte ownTag) 0 code after) s = .next u.settle ∧ u.rrs.offered = some v ∧
        u.rrs.capacity = (if s.rrs.capacity = none ∧ s.layoutFits v = true then some v else s.rrs.capacity) ∧
        (s.wsq.wipe.state ≠ .sweeping ∨ s.rrs.capacity.isSome = true → OnlyChanges [.mcp, .mar, .rrs, .aut] s u)) ∧
    (∀ status : Byte, status.toNat ≤ 1 → status ≠ 0 ∨ (∀ v, s.rrs.ownRecord = some v → v = 0 ∨ 2 ^ 48 < v) →
      ∃ u : State, fails (.mediaStat (mediaByte ownTag) status code after) [] u ∧ u.quiescing ownTag = false ∧
        u.clock = s.clock) ∧
    (∃ u : State, fails (.mediaAbort (mediaByte ownTag) after) [] u ∧ u.quiescing ownTag = false ∧ u.clock = s.clock) ∧
    ∀ d, s.mcp.lanes[ownTag].timer = some d →
      ∃ u : State, fails (.mediaTimeout (mediaByte ownTag)) [.abort (mediaByte ownTag)] u ∧ u.clock = max s.clock d ∧
        u.mcp.lanes[ownTag].quiesce = some (u.clock + 8000 * 8192)

/-- R58, R72, R76, R171, R56: a media GRANT gives credit up to the sectors still to send, on the tag of a DRAINING segment too, which
has no timer to restart; on a tag that takes no credit it sets MEDIA_FAULT; on a tag not in use or quiescing it is discarded.
The model's choices in it: log 16, 20. -/
def Obligations.MediaGrantGivesCredit : Prop :=
  ∀ (s : State) (m : Fin 130) (count : BitVec 16) (after : Framer), count ≠ 0 →
    let grant := Instr.mediaGrant (mediaByte m) count after
    (s.inUse m = false ∨ s.quiescing m = true → ∃ u : State, exec grant s = .next u.settle ∧ Discarded .media after s u) ∧
    (∀ total, s.inUse m = true → s.quiescing m = false → s.creditTotal m = some total →
      ∃ u : State, exec grant s = .next u.settle ∧
        u.mcp = { s.mcp with
          framer := after
          lanes := s.mcp.lanes.set m { s.mcp.lanes[m] with
            credit := min (s.mcp.lanes[m].credit + count.toNat) (total - s.mcp.lanes[m].sent)
            timer := if s.mar.issued.contains m then some (s.clock + 8000 * 8192) else s.mcp.lanes[m].timer } } ∧
        OnlyChanges [.mcp] s u) ∧
    (s.inUse m = true → s.quiescing m = false → s.creditTotal m = none →
      ∃ u : State, exec grant s = .next u.settle ∧
        u.mgc = { s.mgc with flags := s.mgc.flags ||| 0x0200 } ∧ u.mcp.sendOrder = s.mcp.sendOrder ∧
        OnlyChanges [.mcp, .mgc] s u)

/-- R56, R57, R58, R72, R75, R76, R77, R172: on a quiescing tag a media ABORT or STAT, or its timeout, ends quiescing, after which the
tag is not in use and out of the count, also where its segment is DRAINING, and ends the ABORTING context whose last quiescing tag
it was; only the timeout sets MEDIA_FAULT. A media ABORT on an issued tag fails its segment and is not answered; a media timeout fails it and sends the ABORT after
which the tag quiesces. A media ABORT on the tag of a DRAINING segment fails it again and is not answered; a STAT there is discarded.
On a tag not in use both are discarded. Tags 128 and 129 fail as SweepMovesByChunks and OwnIdentifyOffersCapacity say.
The model's choices in it: log 2, 6, 16, 37. -/
def Obligations.MediaTagsAreGivenUp : Prop :=
  ∀ (s : State) (m : Fin 130) (after : Framer),
    let aborted := Instr.mediaAbort (mediaByte m) after
    let quiet (c : Instr) (u : State) : Prop :=
      exec c s = .next u.settle ∧ u.quiescing m = false ∧ u.inUse m = s.mar.issued.contains m ∧
      (∀ n : Fin 130, n ≠ m → u.mcp.lanes[n] = s.mcp.lanes[n]) ∧ u.mcp.sendOrder = s.mcp.sendOrder ∧
      OnlyChanges [.fcp, .cxm, .mcp, .mar, .mgc, .clock] s u ∧
      ∀ t i x g, s.segAt m = some (t, i, x, g) → x.state = .aborting →
        (∀ n ∈ x.mediaTags t, n ≠ m → s.quiescing n = false) →
        u.ctx t = none ∧ u.fcp.sendOrder = s.fcp.sendOrder ++
          [⟨.stat (frontByte t) x.status.toByte (if x.status = .mediaError then x.code else 0), none⟩]
    let fails (c : Instr) (u : State) (t : Fin 32) (i : Nat) (e : SegError) : Prop :=
      exec c s = .next u.settle ∧
      (∃ x' g', u.ctx t = some x' ∧ x'.segs[i]? = some g' ∧ g'.error = some e ∧ g'.uses = false) ∧
      u.mar.issued = s.mar.issued.erase m ∧ u.mgc = { s.mgc with flags := s.mgc.flags ||| 0x0200 } ∧
      OnlyChanges [.mcp, .mar, .cxm, .cph, .stg, .mgc, .clock] s u
    (s.quiescing m = true →
      (∃ u, quiet aborted u ∧ u.mgc = s.mgc ∧ u.clock = s.clock) ∧
      (∀ (status : Byte) (code : BitVec 16), status.toNat ≤ 1 →
        ∃ u, quiet (.mediaStat (mediaByte m) status code after) u ∧ u.mgc = s.mgc ∧ u.clock = s.clock) ∧
      ∀ d, s.mcp.lanes[m].quiesce = some d →
        ∃ u, quiet (.quiesceTimeout (mediaByte m)) u ∧ u.mgc = { s.mgc with flags := s.mgc.flags ||| 0x0200 } ∧
          u.clock = max s.clock d) ∧
    (s.quiescing m = false → s.mar.issued.contains m = false →
      (∀ (status : Byte) (code : BitVec 16), status.toNat ≤ 1 →
        ∃ u : State, exec (.mediaStat (mediaByte m) status code after) s = .next u.settle ∧ Discarded .media after s u) ∧
      (s.draining m = false → ∃ u : State, exec aborted s = .next u.settle ∧ Discarded .media after s u)) ∧
    (s.DrainsOnly m → ∃ u : State, exec aborted s = .next u.settle ∧
      (∀ t i x g, s.segAt m = some (t, i, x, g) → u.inUse m = decide (g.received x < g.len x)) ∧
      FailedAgain s u m after { s.mcp.lanes[m] with credit := 0, reserved := 0, timer := none } []) ∧
    ∀ t i x g, s.segAt m = some (t, i, x, g) → s.mar.issued.contains m = true → s.quiescing m = false →
      (∃ u : State, fails aborted u t i (.media 0) ∧ u.quiescing m = false ∧ u.clock = s.clock ∧
        ∀ n, Frame.abort n ∈ u.mcp.sendOrder → Frame.abort n ∈ s.mcp.sendOrder) ∧
      ∀ d, s.mcp.lanes[m].timer = some d →
        ∃ u : State, fails (.mediaTimeout (mediaByte m)) u t i .timeout ∧ u.clock = max s.clock d ∧
          u.mcp.lanes[m].quiesce = some (u.clock + 8000 * 8192) ∧ Frame.abort (mediaByte m) ∈ u.mcp.sendOrder

/-- R66, R67, R73, R167, R142: the oldest sector staged for an issued WRITE tag with credit goes down and leaves the buffer, and hold
turns off at EWM; an OVERWRITE chunk sends zeros; without credit nothing is sent.
The model's choices in it: log 1. -/
def Obligations.StagedSectorsGoDown : Prop :=
  ∀ (s : State) (m : Fin 130),
    let l := s.mcp.lanes[m]
    let sent (u : State) (x : Sector) : Prop :=
      exec (.stagedSectorSend (mediaByte m)) s = .next u.settle ∧
      u.mcp = { s.mcp with
        sendOrder := s.mcp.sendOrder ++ [.data (mediaByte m) l.seq.outbound x]
        lanes := s.mcp.lanes.set m { l with
          credit := l.credit - 1
          sent := l.sent + 1
          seq := { l.seq with outbound := !l.seq.outbound } } }
    (l.credit = 0 → exec (.stagedSectorSend (mediaByte m)) s = .next s.settle) ∧
    (∀ t i c g x, l.credit ≠ 0 → s.mar.issued.contains m = true → s.segAt m = some (t, i, c, g) → g.phase = .issued →
      c.opcode = .write → (s.stg.staged.find? fun y => y.tag == m) = some x →
      ∃ u : State, sent u x.body ∧
        u.stg = { s.stg with
          staged := s.stg.staged.erase x
          hold := s.stg.hold && decide (s.flow.ewm < s.stg.staged.length - 1) } ∧ OnlyChanges [.mcp, .stg] s u) ∧
    ∀ k, m = chunkTag → l.credit ≠ 0 → s.mar.issued.contains m = true → s.wsq.chunkOut = some k →
      k.method = .overwrite → l.sent < k.len → ∃ u : State, sent u zeroSector ∧ OnlyChanges [.mcp] s u

/-- R77, R78, R79, R80, R56: one command issued while fewer than 32 are outstanding: the own IDENTIFY first, then the waiting chunk
where no host command waits or the share counter has reached K, else the head of the ready queue.
The model's choices in it: log 1, 19. -/
def Obligations.ArbiterIssuesInOrder : Prop :=
  ∀ s : State,
    let issues (u : State) (m : Fin 130) (f : Frame) : Prop :=
      exec .mediaArbiterIssue s = .next u.settle ∧ u.mcp.sendOrder = s.mcp.sendOrder ++ [f] ∧
      u.mcp.lanes = s.mcp.lanes.set m { Lane.start with timer := some (s.clock + 8000 * 8192) } ∧
      u.mar.issued = s.mar.issued ++ [m]
    let ownFirst := s.mar.identify = true ∧ s.quiescing ownTag = false
    (32 ≤ s.outstanding → exec .mediaArbiterIssue s = .next s) ∧
    (s.outstanding < 32 → ownFirst →
      ∃ u : State, issues u ownTag (.cmd 129 .identify 0 0 0) ∧
        u.mar = { s.mar with identify := false, issued := s.mar.issued ++ [ownTag] } ∧
        u.rrs = { s.rrs with ownRecord := none } ∧ OnlyChanges [.mcp, .mar, .rrs] s u) ∧
    (∀ k, s.outstanding < 32 → ¬ownFirst → s.mar.chunk = some k → s.mar.ready = [] ∨ s.flow.k ≤ s.mar.share →
      ∃ u : State, issues u chunkTag (.cmd 128 (if k.method = .overwrite then .write else .trim) (BitVec.ofNat 48 k.first)
          (BitVec.ofNat 16 k.len) 0) ∧
        u.mar = { s.mar with chunk := none, share := 0, issued := s.mar.issued ++ [chunkTag] } ∧
        u.wsq = { s.wsq with chunkOut := some k, chunkStale := false } ∧ OnlyChanges [.mcp, .mar, .wsq] s u) ∧
    ∀ m ms t i c g, s.outstanding < 32 → ¬ownFirst → s.mar.ready = m :: ms →
      s.mar.chunk = none ∨ s.mar.share < s.flow.k → s.segAt m = some (t, i, c, g) →
      ((c.segs.take i).any fun g => g.phase == .failed) = false →
      ∃ u : State, issues u m
          (match c.opcode, c.passed with
            | .pass, some p => .cmd (mediaByte m) .pass p.start p.count p.params
            | .flush, _ => .cmd (mediaByte m) .flush 0 0 0
            | .identify, _ => .cmd (mediaByte m) .identify 0 0 0
            | op, _ => .cmd (mediaByte m) op (BitVec.ofNat 48 (g.mediaStart.getD 0)) (BitVec.ofNat 16 (g.len c)) 0) ∧
        u.mar = { s.mar with ready := ms, share := min 15 (s.mar.share + 1), issued := s.mar.issued ++ [m] } ∧
        (∃ c', u.ctx t = some c' ∧ c'.segs[i]? = some { g with phase := .issued } ∧ c'.state = c.state) ∧
        (∀ v, v ≠ t → u.ctx v = s.ctx v) ∧ OnlyChanges [.mcp, .mar, .cxm] s u

/-- R140 to R144, R56, R172: a chunk lies in one piece of the sweep, starts at the cursor and has at most 256 sectors; it is offered
while none is waiting or outstanding. Its end is a status, a media ABORT or a media timeout: the cursor moves to the next LBA of
the scope, an error, or a good status of an OVERWRITE chunk not wholly sent, counts, and the record is written, while LBAs are
left. The end of a chunk that a restart left behind, or outside a sweep, moves nothing.
The model's choices in it: log 2, 15. -/
def Obligations.SweepMovesByChunks : Prop :=
  (∀ (ps : List Extent) (m : Method) (x : Nat) (k : Chunk), chunkAt ps m x = some k →
    k.first = x ∧ k.method = m ∧ 0 < k.len ∧ k.len ≤ 256 ∧
      ∃ e ∈ ps, e.start ≤ x ∧ k.first + k.len ≤ e.start + e.len) ∧
  (∀ (s : State) (c x : Nat), s.rrs.capacity = some c → s.wsq.wipe.cursor = some x → s.wsq.wipe.state = .sweeping →
    s.rtb.sleep = .awake → x < c → s.mar.chunk = none → s.wsq.chunkOut = none → s.inUse chunkTag = false →
    exec .chunkOffer s = .next
      (State.settle { s with mar.chunk := chunkAt (s.sweepPieces s.wsq.wipe.scope) s.wsq.wipe.method x })) ∧
  ∀ (s : State) (c : Nat) (k : Chunk) (after : Framer),
    s.mar.issued.contains chunkTag = true → s.quiescing chunkTag = false → s.rrs.capacity = some c →
    s.wsq.chunkOut = some k →
    let allSent := k.method != .overwrite || s.mcp.lanes[chunkTag].sent == k.len
    let stale := s.wsq.chunkStale = true ∨ s.wsq.wipe.state ≠ .sweeping
    let x := nextLba (s.sweepPieces s.wsq.wipe.scope) (k.first + k.len) c
    let ends (i : Instr) (err fault abort : Bool) (now : Nat) : Prop :=
      ∃ u : State, exec i s = .next u.settle ∧ u.clock = now ∧
        u.mgc = { s.mgc with flags := s.mgc.flags ||| if fault then 0x0200 else 0 } ∧
        u.mar = { s.mar with issued := s.mar.issued.erase chunkTag } ∧ u.quiescing chunkTag = abort ∧
        u.mcp.sendOrder = s.mcp.sendOrder ++ (if abort then [.abort (mediaByte chunkTag)] else []) ∧
        OnlyChanges [.mcp, .mar, .wsq, .cfs, .mgc, .clock] s u ∧
        (stale → u.wsq = { s.wsq with chunkOut := none, chunkStale := false } ∧ u.cfs = s.cfs) ∧
        (¬stale →
          u.wsq = { s.wsq with
            chunkOut := none
            wipe := { s.wsq.wipe with
              cursor := some x
              errors := if err then min 65535 (s.wsq.wipe.errors + 1) else s.wsq.wipe.errors } } ∧
          ∃ e ∈ u.storeEntries, e.record = .wipe (if s.wsq.eraseStage = .closing then { u.wsq.wipe with eraseSet := 0 }
            else u.wsq.wipe))
    stale ∨ x ≠ c →
      (∀ (status : Byte) (code : BitVec 16), status.toNat ≤ 1 →
        ends (.mediaStat (mediaByte chunkTag) status code after) (status != 0 || !allSent) (status == 0 && !allSent) false
          s.clock) ∧
      ends (.mediaAbort (mediaByte chunkTag) after) true true false s.clock ∧
      ∀ d, s.mcp.lanes[chunkTag].timer = some d → ends (.mediaTimeout (mediaByte chunkTag)) true true true (max s.clock d)

/-- R138, R145, R146, R189, R90: when the cursor reaches C the sweep is finished, with the effects of a full wipe where it is one.
When the last erase write is reported the closing write is queued, with the erase set empty and the next state; when that is
reported the record moves on, ERASE_DONE is set and a sweep without LBAs is finished. The DONE record follows the writes of a full
wipe, and its report sets SWEEP_DONE; until then the store is given the sweep as SWEEPING, by a closing write too.
The model's choices in it: log 14, 15, 48, 57. -/
def Obligations.SweepAndEraseEnd : Prop :=
  (∀ (s : State) (c : Nat) (k : Chunk) (status : Byte) (code : BitVec 16) (after : Framer), status.toNat ≤ 1 →
    s.mar.issued.contains chunkTag = true → s.quiescing chunkTag = false → s.rrs.capacity = some c →
    s.wsq.chunkOut = some k → s.wsq.chunkStale = false → s.wsq.wipe.state = .sweeping → EffectiveInv s →
    nextLba (s.sweepPieces s.wsq.wipe.scope) (k.first + k.len) c = c →
    let allSent := k.method != .overwrite || s.mcp.lanes[chunkTag].sent == k.len
    ∃ u : State, exec (.mediaStat (mediaByte chunkTag) status code after) s = .next u.settle ∧ u.wsq.chunkOut = none ∧
      u.wsq.eraseStage = s.wsq.eraseStage ∧ OnlyChanges [.mcp, .mar, .wsq, .cfs, .mgc, .aut, .rsp] s u ∧
      SweepFinished s u s.wsq.wipe { s.wsq.wipe with
        cursor := some c
        errors := if status == 0 && allSent then s.wsq.wipe.errors else min 65535 (s.wsq.wipe.errors + 1) }) ∧
  ∀ (s : State) (w : Writing), s.cfs.writing = some w → DeletesOnly s →
    let others := s.cfs.queue ++ s.cfs.waiting
    let reports (x : Writer) : Prop := x ∈ w.entry.writers ∧ ∀ y ∈ w.entry.writers, y = x ∨ ∃ id, y = .request id
    let last (x : Writer) : Prop := ∀ e ∈ others, x ∉ e.writers
    let x : WipeRec := { s.wsq.wipe with eraseSet := 0 }
    let next : WipeRec :=
      if x.state ≠ .erasing then x
      else if x.method = .eraseOnly then { x with state := .done, outcome := some .complete }
      else { x with state := .sweeping, cursor := s.rrs.capacity.map (nextLba (s.sweepPieces x.scope) 0) }
    let written (u : State) : Prop := exec (.storeWriteDone w.entry.record) s = .next u.settle
    (reports .erase → s.wsq.eraseStage = .writing → s.wsq.donePending = false →
      (last .erase → ∃ u, written u ∧ u.wsq = { s.wsq with eraseStage := .closing } ∧
        ∃ e ∈ u.storeEntries, e.record = .wipe next ∧ Writer.closing ∈ e.writers) ∧
      (¬last .erase → ∃ u, written u ∧ u.wsq = s.wsq)) ∧
    (∀ y, reports .erase → s.wsq.eraseStage = .writing → s.wsq.donePending = true → s.wsq.unfinished = some y →
      s.wsq.wipe.state = .done → last .erase → ¬last .sweepEffects →
      ∃ u, written u ∧ u.wsq = { s.wsq with eraseStage := .closing } ∧
        ∃ e ∈ u.storeEntries, e.record = .wipe { y with scope := s.wsq.wipe.scope, eraseSet := 0 } ∧
          Writer.closing ∈ e.writers) ∧
    (reports .closing → s.wsq.eraseStage = .closing → s.wsq.donePending = false → EffectiveInv s →
      ∃ u, written u ∧ u.wsq.eraseStage = .none ∧ u.mgc.flags &&& 0x0010 ≠ 0 ∧
        if next.state = .sweeping ∧ next.cursor.isSome = true ∧ next.cursor = s.rrs.capacity then SweepFinished s u next next
        else u.wsq = { s.wsq with wipe := next, eraseStage := .none }) ∧
    (reports .sweepEffects → s.wsq.eraseStage = .none → s.wsq.donePending = true →
      (last .sweepEffects → ∃ u, written u ∧ u.wsq = { s.wsq with donePending := false, unfinished := none } ∧
        ∃ e ∈ u.storeEntries, e.record = .wipe s.wsq.wipe ∧ Writer.sweepDone ∈ e.writers) ∧
      (¬last .sweepEffects → ∃ u, written u ∧ u.wsq = s.wsq)) ∧
    (reports .sweepDone → ∃ u, written u ∧ u.mgc.flags &&& 0x0020 ≠ 0)

/-! ### Verifies, replies and the store (chapters 5, 11, 12) -/

/-- R87 to R91, R128: a verify starts once its tentative write is reported and ends 80 ms later. A success gives the tries back,
clears the throttle and the dead-start count and queues their records; its request goes to its owner, but for an UNLOCK of a user
in lockdown. A failure with tries left is DENIED and throttled; the failure of the last try leaves the authority BLOCKED with
AUTH_BLOCKED and its source pending, and is HALTED. A verify that a full wipe overtook changes nothing for a user, and counts no
failure for ADMIN.
The model's choices in it: log 2, 3, 9, 35, and log 54 for the throttle of a failure in STARTING. -/
def Obligations.VerifyOutcomes : Prop :=
  ∀ (s : State) (w : Work),
    ((s.mgc.works.find? fun v => v.stage == .tentative && !s.owes (.request v.id)) = some w →
      ∃ u : State, exec .verifyStart s = .next u.settle ∧
        (∃ v, u.work w.id = some v ∧ v.stage = .verifying (s.clock + 80 * 8192)) ∧ OnlyChanges [.mgc] s u) ∧
    ∀ d, (s.mgc.works.find? fun v => v.verifyTill.isSome) = some w → w.verifyTill = some d →
      let i := w.req.authority
      let a := s.aut.authorities[i]
      let fails (u : State) : Prop := exec .verifyEnd s = .next u.settle ∧ u.clock = max s.clock d
      (verifies w.cred a = true → w.overtaken = false ∨ i = 0 → s.work w.id = some w → 0 < a.limit →
        ∃ (u : State) (v : Work), exec .verifyEnd s = .next u.settle ∧ u.clock = max s.clock d ∧
          u.aut.authorities = s.aut.authorities.set i { a with remaining := a.limit } ∧
          u.aut.throttle = s.aut.throttle.set i none ∧ u.aut.dead = { s.aut.dead with count := 0 } ∧
          u.rsp.src.pending.getLsbD 4 = false ∧ OnlyChanges (.clock :: actionBlocks) s u ∧
          Stores u w.id (.authority i { a with remaining := a.limit }) ∧
          (s.aut.dead.count ≠ 0 → Stores u w.id (.deadStart { s.aut.dead with count := 0 })) ∧
          u.work w.id = some v ∧
          if w.req.code = 0x10 ∧ i ≠ 0 ∧ u.lockdown = true then
            v.stage = .finishing (.refused w.req .lockdown []) ∧ v.cred = none
          else v.stage = .ready ∧ v.cred = if w.req.opensEnvelopes then w.cred else none) ∧
      (verifies w.cred a = false → w.overtaken = false → 0 < a.remaining →
        ∃ u : State, fails u ∧
          u.aut = { s.aut with
            throttle := s.aut.throttle.set i (some (u.clock + min 32000 (250 * 2 ^ (a.limit - a.remaining - 1)) * 8192)) } ∧
          Replied s u w.id (.refused w.req .denied []) ∧ OnlyChanges [.aut, .mgc, .clock] s u) ∧
      (verifies w.cred a = false → w.overtaken = false → a.remaining = 0 →
        ∃ u : State, fails u ∧
          u.aut.authorities[i] = { a with state := .blocked } ∧ u.mgc.flags &&& 0x0080 ≠ 0 ∧
          u.rsp.src.pending.getLsbD (if i = 0 then 1 else 0) = true ∧ Answered u w.id (.halted w.req) ∧
          OnlyChanges (.clock :: actionBlocks) s u) ∧
      (w.overtaken = true → i ≠ 0 →
        ∃ u : State, fails u ∧ Replied s u w.id (.refused w.req .notPermitted []) ∧ OnlyChanges [.mgc, .clock] s u) ∧
      (w.overtaken = true → i = 0 → verifies w.cred a = false →
        ∃ u : State, fails u ∧ Replied s u w.id (.refused w.req .denied []) ∧ OnlyChanges [.mgc, .clock] s u)

/-- R179, R182, R189, R177: the oldest request whose reply can go is released: held with the channel REPLY_READY, as STORE_FAULT if
one of its writes failed after it formed DONE; a detached one is dropped and the flags it took are set again.
The model's choices in it: log 23, 27, and log 64 for a READ_EVENTS handled before the link reset that detached it. -/
def Obligations.RepliesAreReleased : Prop :=
  ∀ (s : State) (w : Work) (r : Reply), s.mgc.works.find? s.releasable = some w → w.stage = .finishing r →
    (w.detached = true →
      ∃ u : State, exec .replyReady s = .next u.settle ∧ OnlyChanges [.mgc] s u ∧
        u.mgc = { s.mgc with
          works := s.mgc.works.filter fun v => v.id != w.id
          flags := s.mgc.flags ||| r.taken }) ∧
    (w.detached = false →
      ∃ (u : State) (r' : Reply), exec .replyReady s = .next u.settle ∧ OnlyChanges [.mgc] s u ∧
        u.mgc = { s.mgc with
          works := s.mgc.works.filter fun v => v.id != w.id
          heldReply := some r'
          channel := .replyReady } ∧
        (w.storeFailed = true → r.outcome = .done → r'.outcome = .refused ∧ r'.reason = .storeFault) ∧
        (w.storeFailed = false ∨ r.outcome ≠ .done →
          r'.outcome = r.outcome ∧ r'.reason = r.reason ∧ r'.retryAfter = r.retryAfter ∧ r'.code = r.code ∧
            r'.taken = r.taken ∧ (r.code ≠ 0x50 → r'.body = r.body)))

/-- R188, R189: a write read back equal is stored as passing; read back different it is written again once; different again it is
stored as failing its check, STORE_FAULT is set, its source pends, and its requests are marked. A record left so fails its check
until it is stored again, also where a loss of power lands its next write.
The model's choices in it: log 2, 10, 11. -/
def Obligations.StoreWriteEnds : Prop :=
  ∀ (s : State) (w : Writing) (readBack : Record), s.cfs.writing = some w →
    let i := w.entry.record.id
    (readBack = w.entry.record →
      ∃ u : State, exec (.storeWriteDone readBack) s = .next u.settle ∧ u.clock = max s.clock w.till ∧
        u.cfs.nv = s.cfs.nv.put true readBack ∧ u.cfs.writing = none ∧
        (∀ j, j ∈ u.cfs.mismatched ↔ j ∈ s.cfs.mismatched ∧ j ≠ i) ∧
        ((∀ x ∈ w.entry.writers, ∃ id, x = .request id) → s.wsq.eraseStage = .none → s.wsq.donePending = false →
          OnlyChanges [.cfs, .mgc, .clock] s u)) ∧
    (readBack ≠ w.entry.record → w.retried = false →
      exec (.storeWriteDone readBack) s = .next (State.settle
        { s with
          clock := (max s.clock w.till)
          cfs.writing := some { w with retried := true, till := w.till + 5 * 8192 } })) ∧
    (readBack ≠ w.entry.record → w.retried = true →
      ∃ u : State, exec (.storeWriteDone readBack) s = .next u.settle ∧ u.clock = max s.clock w.till ∧
        u.cfs.nv = s.cfs.nv.put false (leftBehind w.entry.record readBack) ∧ u.cfs.writing = none ∧
        (∀ j, j ∈ u.cfs.mismatched ↔ j ∈ s.cfs.mismatched ∨ j = i) ∧
        u.mgc.flags &&& 0x0400 ≠ 0 ∧ u.rsp.src.pending.getLsbD 5 = true ∧
        OnlyChanges (.clock :: actionBlocks) s u ∧
        ∀ id, Writer.request id ∈ w.entry.writers → ∀ v ∈ u.mgc.works, v.id = id → v.storeFailed = true) ∧
    ∀ landed : Bool, s.cfs.atPowerOn landed [] =
      if landed then s.cfs.nv.put (decide (i ∉ s.cfs.mismatched)) w.entry.record else s.cfs.nv

/-! ### Link sleep, wake, retention, front link reset (chapter 9, 3.8, 11) -/

/-- R152, R153, R33, R154: SLEEP is BUSY in STARTING, WAKING or while one of six conditions holds, is answered ENTERED while ASLEEP and
not at all while ENTERING. Taken, it locks the RELOCK ranges in their enabled
directions, retains exactly the LIVE keys of ACTIVE HOLD ranges that have a lock enabled and are not locked both ways, leaves no
LIVE slot in an ACTIVE range with a lock enabled, and starts the timer where a key is retained. ENTERED is sent when the store
has drained.
The model's choices in it: log 1. -/
def Obligations.SleepEntry : Prop :=
  (∀ (s : State) (after : Framer),
    (s.sleepRefused = true ↔ (∃ t, s.ctx t ≠ none) ∨ s.mgc.channel = .working ∨ s.engineInUse = true ∨
      s.sweepRunning = true ∨ s.bsc.running ≠ none ∨ s.outstanding ≠ 0) ∧
    let answers (v : Byte) : Prop := exec (.sleep after) s = .next (State.settle { s with
      fcp.framer := after
      fcp.sendOrder := s.fcp.sendOrder ++ [⟨.powerStatus v, none⟩] })
    (s.rtb.sleep = .awake → s.rrs.capacity = none ∨ s.sleepRefused = true → answers 0x02) ∧
    (s.rtb.sleep = .entering → exec (.sleep after) s = .next { s with fcp.framer := after }) ∧
    (s.rtb.sleep = .asleep → answers 0x01) ∧ (s.rtb.sleep = .waking → answers 0x02)) ∧
  (∀ (s : State) (after : Framer), s.rtb.sleep = .awake → s.rrs.capacity.isSome = true → s.sleepRefused = false → s.rtb.retained = [] →
    s.rtb.key = none →
    ∃ u : State, exec (.sleep after) s = .next u.settle ∧ u.rtb.sleep = .entering ∧ u.fcp = { s.fcp with framer := after } ∧
      u.mgc.heldReply = (if s.mgc.channel = .replyReady then none else s.mgc.heldReply) ∧
      (∀ r : Fin 17, s.isDefined r = true → s.rrs.ranges[r].cfg.policy.hold = false →
        u.rrs.ranges[r] = { s.rrs.ranges[r] with
          readLocked := s.rrs.ranges[r].readLocked || s.rrs.ranges[r].cfg.policy.readEn
          writeLocked := s.rrs.ranges[r].writeLocked || s.rrs.ranges[r].cfg.policy.writeEn }) ∧
      (∀ r : Fin 17, s.rrs.ranges[r].cfg.policy.hold = true → u.rrs.ranges[r] = s.rrs.ranges[r]) ∧
      (∀ r : Fin 17, u.rtb.relocked.getLsbD r.val = true ↔ s.isDefined r = true ∧
        s.rrs.ranges[r].cfg.policy.hold = false ∧ u.rrs.ranges[r] ≠ s.rrs.ranges[r]) ∧
      (∀ r : Fin 17, (∃ e ∈ u.rtb.retained, e.range = r) ↔
        s.isDefined r = true ∧ s.rrs.ranges[r].cfg.policy.hold = true ∧ s.rrs.ranges[r].cfg.erased = false ∧
          s.rrs.ranges[r].cfg.policy.anyLock = true ∧ s.rrs.ranges[r].lockedBoth = false ∧
          s.cph.slots[rangeSlot r].isLive = true) ∧
      (∀ e ∈ u.rtb.retained, (u.rtb.key.bind fun k => e.wrapped.opened (.retention k)) = s.slotKey (rangeSlot e.range)) ∧
      (∀ r : Fin 17, s.rrs.ranges[r].cfg.erased = false → s.rrs.ranges[r].cfg.policy.anyLock = true →
        u.cph.slots[rangeSlot r].isLive = false) ∧
      (u.rtb.retained ≠ [] → u.rtb.timer = .running (s.clock + 60000 * s.rtb.limit * 8192)) ∧
      u.rrs = { s.rrs with ranges := u.rrs.ranges } ∧ u.cph.held = s.cph.held ∧
      OnlyChanges [.fcp, .rrs, .cph, .rtb, .mgc, .draws] s u) ∧
  ∀ s : State,
    (s.rtb.sleep = .entering → s.drained = true → s.rtb.wakeHeld = false →
      exec .sleepEntered s = .next (State.settle { s with
        rtb.sleep := .asleep
        fcp.sendOrder := s.fcp.sendOrder ++ [⟨.powerStatus 0x01, none⟩] })) ∧
    (s.rtb.sleep ≠ .entering ∨ s.drained = false → exec .sleepEntered s = .next s)

/-- R154, R157, R158, R159: what WAKE does in each sleep state, a WAKE held while ENTERING being taken when ENTERED has been sent; from
ASLEEP, the timer, the retained list and the bind policy choose between EXPIRED, NOTHING_RETAINED, RESTORED and a measurement. The
end of a wake sends AWAKE.
The model's choices in it: log 13. -/
def Obligations.WakeEndings : Prop :=
  ∀ (s : State) (after : Framer),
    let wakes (i : Instr) (framer : Framer) (entered : List FrontOut) : Prop :=
      let ends (u : State) (o : SleepOutcome) : Prop :=
        exec i s = .next u.settle ∧ u.rtb.sleep = .awake ∧ u.rtb.outcome = o ∧ u.rtb.timer = .stopped ∧
        u.rtb.relocked = 0 ∧ u.rtb.wakeHeld = false ∧
        u.rrs = { s.rrs with bootDone := s.rrs.bootDone && s.rtb.relocked == 0 } ∧
        u.fcp = { s.fcp with
          framer := framer
          sendOrder := s.fcp.sendOrder ++ entered ++ [⟨.powerStatus 0x03, none⟩] }
      (s.rtb.timer = .expired → ∃ u : State, ends u .expired ∧ OnlyChanges [.fcp, .rrs, .rtb] s u) ∧
      (s.rtb.timer ≠ .expired → s.rtb.retained = [] →
        ∃ u : State, ends u .nothingRetained ∧ OnlyChanges [.fcp, .rrs, .rtb] s u) ∧
      (s.rtb.timer ≠ .expired → s.rtb.retained ≠ [] → s.bsc.record.policy = .off →
        (s.rtb.retained.map Retained.range).Nodup →
        ∃ u : State, ends u .restored ∧ u.rtb.retained = [] ∧ u.rtb.key = none ∧ OnlyChanges [.fcp, .rrs, .rtb, .cph] s u ∧
          ∀ e ∈ s.rtb.retained, ∀ k, (s.rtb.key.bind fun x => e.wrapped.opened (.retention x)) = some k →
            u.cph.slots[rangeSlot e.range].key = .live k) ∧
      (s.rtb.timer ≠ .expired → s.rtb.retained ≠ [] → s.bsc.record.policy ≠ .off → s.bsc.running = none →
        ∃ u : State, exec i s = .next u.settle ∧
          u.rtb = { s.rtb with sleep := .waking, wakeHeld := false, timer := .stopped } ∧
          u.fcp = { s.fcp with framer := framer, sendOrder := s.fcp.sendOrder ++ entered } ∧
          u.bsc = { s.bsc with
            phase := .zeroing
            phaseStart := s.clock
            running := some ⟨.binding, s.bsc.record.routine, [.wake]⟩ } ∧ OnlyChanges [.fcp, .rtb, .bsc] s u)
    (s.rtb.sleep = .awake → exec (.wake after) s = .next (State.settle { s with
      fcp.framer := after
      fcp.sendOrder := s.fcp.sendOrder ++ [⟨.powerStatus 0x03, none⟩] })) ∧
    (s.rtb.sleep = .entering →
      exec (.wake after) s = .next (State.settle { s with fcp.framer := after, rtb.wakeHeld := true })) ∧
    (s.rtb.sleep = .waking → exec (.wake after) s = .next { s with fcp.framer := after }) ∧
    (s.rtb.sleep = .asleep → wakes (.wake after) after []) ∧
    (s.rtb.sleep = .entering → s.drained = true → s.rtb.wakeHeld = true →
      wakes .sleepEntered s.fcp.framer [⟨.powerStatus 0x01, none⟩])

/-- R155, R158, R159, R113, R5: when the retention timer reaches its limit every retained key is discarded, its range is locked in its
enabled directions, and RETENTION_EXPIRED is set. The measurement of a wake ends it: a MATCH makes the retained slots LIVE again
(RESTORED); any other class discards the keys, locks their ranges and returns no key (RELOCKED_BAY). Boot-done stays only
where the sleep locked nothing.
The model's choices in it: log 1, 2. -/
def Obligations.RetentionEnds : Prop :=
  (∀ (s : State) (till : Nat), s.rtb.timer = .running till → s.rtb.sleep = .entering ∨ s.rtb.sleep = .asleep →
    ∃ u : State, exec .retentionExpiry s = .next u.settle ∧ u.clock = max s.clock till ∧
      u.rtb.retained = [] ∧ u.rtb.key = none ∧ u.rtb.timer = .expired ∧ u.rtb.sleep = s.rtb.sleep ∧
      u.mgc = { s.mgc with flags := s.mgc.flags ||| 0x1000 } ∧
      (∀ r : Fin 17, u.rrs.ranges[r] =
        if s.isDefined r = true ∧ r ∈ s.rtb.retained.map Retained.range then
          { s.rrs.ranges[r] with
            readLocked := s.rrs.ranges[r].readLocked || s.rrs.ranges[r].cfg.policy.readEn
            writeLocked := s.rrs.ranges[r].writeLocked || s.rrs.ranges[r].cfg.policy.writeEn }
        else s.rrs.ranges[r]) ∧
      OnlyChanges [.rrs, .cph, .rtb, .mgc, .clock] s u) ∧
  ∀ (s : State) (c : Conversion) (d : Nat), s.bsc.running = some c → s.bsc.phase = .deintegrating → c.mode = .binding →
    c.requesters = [.wake] → s.rtb.sleep = .waking → s.bsc.record.policy ≠ .off → EffectiveInv s →
    let cls := bindingClass s.bsc.record c.setting (min d c.setting.f)
    ∃ u : State, exec (.deintegratingEnd d) s = .next u.settle ∧ u.rtb.sleep = .awake ∧ u.rtb.retained = [] ∧
      u.rtb.key = none ∧ u.rtb.relocked = 0 ∧ u.fcp.sendOrder.getLast? = some ⟨.powerStatus 0x03, none⟩ ∧
      (cls = .hit → (s.rtb.retained.map Retained.range).Nodup →
        u.rtb.outcome = .restored ∧
        u.rrs = { s.rrs with bootDone := s.rrs.bootDone && s.rtb.relocked == 0 } ∧
        (∀ e ∈ s.rtb.retained, ∀ k, (s.rtb.key.bind fun x => e.wrapped.opened (.retention x)) = some k →
          u.cph.slots[rangeSlot e.range].key = .live k) ∧
        (∀ i : Fin 18, (∀ e ∈ s.rtb.retained, i ≠ rangeSlot e.range) → u.cph.slots[i] = s.cph.slots[i])) ∧
      (cls ≠ .hit →
        u.rtb.outcome = .relockedBay ∧
        (∀ e ∈ s.rtb.retained, s.isDefined e.range = true →
          (s.rrs.ranges[e.range].cfg.policy.readEn = true → u.rrs.ranges[e.range].readLocked = true) ∧
          (s.rrs.ranges[e.range].cfg.policy.writeEn = true → u.rrs.ranges[e.range].writeLocked = true)) ∧
        (∀ i : Fin 18, u.cph.slots[i].key = s.cph.slots[i].key ∨ u.cph.slots[i].key = .sealed ∨
          u.cph.slots[i].key = .destroyed) ∧
        (u.rrs.bootDone = true → s.rrs.bootDone = true ∧ s.rtb.relocked = 0 ∧ ∀ r : Fin 17,
          u.rrs.ranges[r].readLocked = s.rrs.ranges[r].readLocked ∧
          u.rrs.ranges[r].writeLocked = s.rrs.ranges[r].writeLocked))

/-- R65, R165, R167, R177, R5, R58, R72, R77: a front link reset frees every context without a STAT, sends an ABORT on each media tag whose
command is still issued, which then quiesces, drops the write credit of every host tag, empties the buffers and the front send order
but for POWER_STATUS, locks the ranges that relock on link reset, and detaches the request being worked. The count of outstanding
media commands changes only by the tags of DRAINING segments, which are in use no more as their contexts are freed (R76).
The model's choices in it: log 16, 18, and log 50 for the order of the ABORT frames. -/
def Obligations.LinkResetFreesEverything : Prop :=
  ∀ (s : State) (after : Framer), ∃ u : State, exec (.linkReset after) s = .next u.settle ∧
    let aborts := (List.finRange 32).flatMap fun t => match s.ctx t with
      | some c => s.tagsToAbort t c
      | none => []
    (∀ t, u.ctx t = none) ∧ u.stg = ⟨[], false, []⟩ ∧ u.cph.held = [] ∧
    u.mar = { s.mar with ready := [], issued := s.mar.issued.diff aborts } ∧
    u.mcp.sendOrder = s.mcp.sendOrder ++ aborts.map (fun m => .abort (mediaByte m)) ∧
    (∀ m : Fin 130, u.mcp.lanes[m] =
      if m ∈ aborts then (s.mcp.lanes[m]).givenUp s.clock
      else { s.mcp.lanes[m] with reserved := 0, credit := if m.val < 128 then 0 else s.mcp.lanes[m].credit }) ∧
    (∀ i : Fin 18, u.cph.slots[i].key = s.cph.slots[i].key ∨ u.cph.slots[i].key = .sealed) ∧
    u.fcp.framer = after ∧ u.fcp.onLanes = s.fcp.onLanes ∧
    (∀ f, f ∈ u.fcp.sendOrder ↔ f ∈ s.fcp.sendOrder ∧ ∃ v, f.frame = .powerStatus v) ∧ (∀ m : Fin 130, u.inUse m = (s.mar.issued.contains m || s.quiescing m)) ∧
    ((∀ m, s.draining m = false) → u.outstanding = s.outstanding) ∧
    (∀ t : Fin 32, u.fcp.seq[t] = { s.fcp.seq[t] with stalled := false, lastCrc := none }) ∧
    (∀ r : Fin 17, u.rrs.ranges[r] =
      if s.isDefined r = true ∧ s.rrs.ranges[r].cfg.policy.relock = true then
        { s.rrs.ranges[r] with
          readLocked := s.rrs.ranges[r].readLocked || s.rrs.ranges[r].cfg.policy.readEn
          writeLocked := s.rrs.ranges[r].writeLocked || s.rrs.ranges[r].cfg.policy.writeEn }
      else s.rrs.ranges[r]) ∧
    u.rrs = { s.rrs with ranges := u.rrs.ranges } ∧ u.mgc.channel = .idle ∧ u.mgc.mark = none ∧ u.mgc.heldReply = none ∧
    u.mgc.flags &&& 0x0002 ≠ 0 ∧
    (s.mgc.channel = .working → u.mgc.flags &&& 0x0800 ≠ 0 ∧ ∀ w ∈ u.mgc.works, w.detached = true) ∧
    (s.mgc.flags &&& u.mgc.flags = s.mgc.flags) ∧
    OnlyChanges [.fcp, .mcp, .rrs, .cph, .cxm, .stg, .mar, .rtb, .mgc] s u

/-! ### The Bay Sense Converter (chapter 6) -/

/-- R106, R107: ZEROING lasts F counts and INTEGRATING F/2 counts of 125 clock units; a phase end out of its phase changes
nothing.
The model's choices in it: log 1, 2, 33. -/
def Obligations.ConversionPhases : Prop :=
  ∀ (s : State) (c : Conversion), s.bsc.running = some c →
    let f := match c.setting with | .fine => 6400 | .standard => 3200 | .quick => 1600 | .coarse => 800
    (s.bsc.phase = .zeroing →
      exec .zeroingEnd s = .next (State.settle { s with
        clock := (max s.clock (s.bsc.phaseStart + f * 125))
        bsc.phase := .integrating
        bsc.phaseStart := s.bsc.phaseStart + f * 125 })) ∧
    (s.bsc.phase = .integrating →
      exec .integratingEnd s = .next (State.settle { s with
        clock := (max s.clock (s.bsc.phaseStart + f / 2 * 125))
        bsc.phase := .deintegrating
        bsc.phaseStart := s.bsc.phaseStart + f / 2 * 125 })) ∧
    (s.bsc.phase ≠ .zeroing → exec .zeroingEnd s = .next s) ∧
    (s.bsc.phase ≠ .integrating → exec .integratingEnd s = .next s) ∧
    (s.bsc.phase ≠ .deintegrating → ∀ d, exec (.deintegratingEnd d) s = .next s)

/-- R106, R108, R109, R112, R113: the end of a conversion that serves no enrolment records its result, with D at most F,
r = floor((2000 D + F/2) / F) where D < F, and the class of the first line that applies; BAY_RESULT is set, the fault mark follows a
self-test, and the pending conversion starts. While the bind policy is not OFF, the class latches and clears the bay sources.
The model's choices in it: log 1, 2, 33. -/
def Obligations.ConversionResult : Prop :=
  ∀ (s : State) (c : Conversion) (d : Nat), s.bsc.running = some c → s.bsc.phase = .deintegrating → c.enrolment = none →
    let f := c.setting.f
    let n := min d f
    let r := (2000 * n + f / 2) / f
    let cls : BayClass := match c.mode with
      | .binding =>
        if f ≤ d then .openBay
        else if s.bsc.record.faultMark then .fault
        else if d < f / 32 then .short
        else match s.bsc.record.window with
          | some (lo, hi) => if lo ≤ r ∧ r ≤ hi then .hit else .mismatch
          | none => .mismatch
      | .selfTest =>
        if f ≤ d then .openBay else if d < f / 32 then .short else if 990 ≤ r ∧ r ≤ 1010 then .hit else .fault
    let x : BayResult :=
      { mode := c.mode, setting := c.setting, d := n, r := if n < f then some r else none, cls := cls
        requester := (c.requesters.head?.map Requester.code).getD 0 }
    ∃ u : State, exec (.deintegratingEnd d) s = .next u.settle ∧
      u.clock = max s.clock (s.bsc.phaseStart + n * 125) ∧ u.mgc.flags &&& 0x0040 ≠ 0 ∧ u.bsc.waiting = none ∧
      OnlyChanges (.bsc :: .clock :: actionBlocks) s u ∧
      (match s.bsc.waiting with
        | some w => u.bsc.running = some w ∧ u.bsc.phase = .zeroing ∧ u.bsc.phaseStart = u.clock
        | none => u.bsc.running = none ∧ u.bsc.phase = .idle) ∧
      (c.mode = .binding → u.bsc.record = s.bsc.record ∧ u.bsc.lastSelf = s.bsc.lastSelf ∧ u.bsc.lastBay = some x) ∧
      (c.mode = .selfTest → u.bsc.lastBay = s.bsc.lastBay ∧ u.bsc.lastSelf = some x ∧
        u.bsc.record = { s.bsc.record with faultMark := cls != .hit }) ∧
      (s.bsc.record.policy = .off → u.rsp = s.rsp) ∧
      (s.bsc.record.policy ≠ .off → ∀ i : Fin 6, u.rsp.src.pending.getLsbD i.val =
        match c.mode, cls with
        | .binding, .hit => s.rsp.src.pending.getLsbD i.val && i != 2 && i != 3
        | .binding, .mismatch => s.rsp.src.pending.getLsbD i.val || i == 2
        | .selfTest, .hit => s.rsp.src.pending.getLsbD i.val
        | _, _ => s.rsp.src.pending.getLsbD i.val || i == 3)

/-- R115, R112, R113: the end of a conversion that serves an enrolment. Accepted, it sets the window to r - tol .. r + tol within
0..2000 and the policy to WARN, its result is a MATCH, the bay record is queued, and DONE carries the result and the window. With
an open or short bay or the fault mark set it is not accepted: record as before, BAY_MISMATCH with the eight bytes of the result
alone, without a window, which is the model's choice (log 23).
The model's choices in it: log 2, 23, 33, 52. -/
def Obligations.EnrolmentEnds : Prop :=
  ∀ (s : State) (c : Conversion) (d id tol : Nat) (w : Work), s.bsc.running = some c → s.bsc.phase = .deintegrating →
    c.mode = .binding → Requester.enroll id tol ∈ c.requesters →
    (∀ q ∈ c.requesters, q = .enroll id tol ∨ q = .startUp ∨ ∃ j, j ≠ id ∧ q = .measure j) → s.work id = some w →
    let f := c.setting.f
    let n := min d f
    let r := (2000 * n + f / 2) / f
    let x (cls : BayClass) : BayResult :=
      { mode := .binding, setting := c.setting, d := n, r := if n < f then some r else none, cls := cls
        requester := (c.requesters.head?.map Requester.code).getD 0 }
    let body (cls : BayClass) : List Byte :=
      be 1 0 ++ be 1 c.setting.code ++ be 2 n ++ be 2 (if n < f then r else 0xFFFF) ++ be 1 cls.code ++ be 1 (x cls).requester
    let refused := f ≤ d ∨ s.bsc.record.faultMark = true ∨ d < f / 32
    let cls : BayClass := if f ≤ d then .openBay else if s.bsc.record.faultMark then .fault else .short
    ∃ u : State, exec (.deintegratingEnd d) s = .next u.settle ∧ u.clock = max s.clock (s.bsc.phaseStart + n * 125) ∧
      u.mgc.flags &&& 0x0040 ≠ 0 ∧ u.bsc.lastSelf = s.bsc.lastSelf ∧ OnlyChanges (.bsc :: .clock :: actionBlocks) s u ∧
      (refused → u.bsc.record = s.bsc.record ∧ u.bsc.lastBay = some (x cls) ∧
        Answered u id (.refused w.req .bayMismatch (body cls)) ∧
        u.rsp.src.pending.getLsbD 3 = (s.rsp.src.pending.getLsbD 3 || s.bsc.record.policy != .off)) ∧
      (¬refused →
        let lo := r - tol
        let hi := min 2000 (r + tol)
        u.bsc.record = { s.bsc.record with window := some (lo, hi), policy := .warn } ∧ u.bsc.lastBay = some (x .hit) ∧
        Stores u id (.bay u.bsc.record) ∧ Answered u id (.done w.req (body .hit ++ be 2 lo ++ be 2 hi)) ∧
        u.rsp.src.pending.getLsbD 2 = false ∧ u.rsp.src.pending.getLsbD 3 = false)

/-- R107, R110, R111, R115, R116, R117: MEASURE_BAY and ENROLL_BAY start a conversion on an idle converter, make the pending one while
one runs, or join it, at the finer setting of the two; they are DEFERred 250 ms where the pending conversion is of the other mode,
or already serves an enrolment and another one asks. SET_BIND_POLICY needs a window for any policy but OFF, and OFF clears the
wait for the start-up result.
The model's choices in it: log 3. -/
def Obligations.BayRequests : Prop :=
  ∀ (s : State) (w : Work),
    let q := w.req
    let asks (i : Instr) (m : BayMode) (g : Setting) (r : Requester) (enrols : Bool) : Prop :=
      let joins (b : Bsc) : Prop := ∃ u : State, exec i s = .next u.settle ∧ u.bsc = b ∧
        (∃ v, u.work w.id = some v ∧ v.stage = .converting ∧ v.cred = none) ∧ OnlyChanges [.bsc, .mgc] s u
      (s.bsc.running = none →
        joins { s.bsc with phase := .zeroing, phaseStart := s.clock, running := some ⟨m, g, [r]⟩ }) ∧
      (s.bsc.running.isSome = true → s.bsc.waiting = none → joins { s.bsc with waiting := some ⟨m, g, [r]⟩ }) ∧
      ∀ p, s.bsc.running.isSome = true → s.bsc.waiting = some p →
        let clash := p.mode ≠ m ∨ (enrols = true ∧ ∃ j tol, Requester.enroll j tol ∈ p.requesters)
        (clash → ∃ u : State, exec i s = .next u.settle ∧ Replied s u w.id (.defer q 250) ∧ OnlyChanges [.mgc] s u) ∧
        (¬clash → joins { s.bsc with
          waiting := some ⟨m, if g.f ≤ p.setting.f then p.setting else g, p.requesters ++ [r]⟩ })
    (s.readyFor .measureBay = some w →
      asks .measureBay (if q.num 0 1 = 0 then .binding else .selfTest) (Setting.ofCode (q.num 1 1)) (.measure w.id) false) ∧
    (s.readyFor .enrollBay = some w → asks .enrollBay .binding .fine (.enroll w.id (q.num 0 1)) true) ∧
    (s.readyFor .setBindPolicy = some w →
      let p := BindPolicy.ofCode (q.num 0 1)
      (p ≠ .off → s.bsc.record.window = none →
        ∃ u : State, exec .setBindPolicy s = .next u.settle ∧ Replied s u w.id (.refused q .badRequest []) ∧
          OnlyChanges [.mgc] s u) ∧
      (p = .off ∨ s.bsc.record.window ≠ none →
        ∃ u : State, exec .setBindPolicy s = .next u.settle ∧
          u.bsc = { s.bsc with
            record := { s.bsc.record with policy := p, routine := Setting.ofCode (q.num 1 1) }
            awaiting := s.bsc.awaiting && p != .off } ∧
          Stores u w.id (.bay u.bsc.record) ∧ Replied s u w.id (.done q []) ∧ OnlyChanges [.bsc, .mgc, .cfs] s u))

/-! ### Management requests (chapters 1, 5, 7, 8, 9, 11) -/

/-- R180, R182: QUERY_STATUS answers the page it names and changes nothing; READ_EVENTS answers the flags then set and clears
them.
The model's choices in it: log 3, 5, 21. -/
def Obligations.StatusAndEvents : Prop :=
  ∀ (s : State) (w : Work),
    (s.readyFor .queryStatus = some w → ∃ u : State, exec .queryStatus s = .next u.settle ∧
      Replied s u w.id (.done w.req (match w.req.num 0 1 with
        | 0 => s.page0 | 1 => s.page1 | 2 => s.page2 | _ => s.page3)) ∧
      OnlyChanges [.mgc] s u) ∧
    (s.readyFor .readEvents = some w → ∃ u : State, exec .readEvents s = .next u.settle ∧
      Answered u w.id ⟨.done, .none, 0, w.req.code, be 2 s.mgc.flags.toNat, s.mgc.flags⟩ ∧ u.mgc.flags = 0 ∧
      u.note = false ∧ u.mgc.noteMask = s.mgc.noteMask ∧ OnlyChanges [.mgc] s u)

/-- R183: SET_NOTE_MASK. ADMIN, three masks over the flags, refused before admission where one has a bit above them; then set, clear and
toggle in that order; NOTE follows at once; the mask is queued where it changed and DONE waits for every write of the request;
the flags, so what READ_EVENTS returns, are as before, and a power loss before the write begins leaves the stored mask. -/
def Obligations.SetNoteMaskRule : Prop :=
  (∀ q : Request, ReqKind.setNoteMask.cls q = .admin ∧ ReqKind.setNoteMask.size = 6) ∧
  (∀ (s : State) (q : Request), s.badFields .setNoteMask q = true ↔
    2 ^ 13 ≤ q.num 0 2 ∨ 2 ^ 13 ≤ q.num 2 2 ∨ 2 ^ 13 ≤ q.num 4 2) ∧
  (∀ (s : State) (q : Request), q.auth = 0 → 6 ≤ q.bodyLen → q.bodyLen ≤ 476 → s.badFields .setNoteMask q = true →
    s.formFault .setNoteMask q = some .badRequest) ∧
  ∀ (s : State) (w : Work), s.readyFor .setNoteMask = some w →
    ∃ u : State, exec .setNoteMask s = .next u.settle ∧
      (∀ i, u.mgc.noteMask.getLsbD i =
        (((s.mgc.noteMask.getLsbD i || (BitVec.ofNat 13 (w.req.num 0 2)).getLsbD i) &&
          !(BitVec.ofNat 13 (w.req.num 2 2)).getLsbD i) ^^ (BitVec.ofNat 13 (w.req.num 4 2)).getLsbD i)) ∧
      u.mgc.flags = s.mgc.flags ∧ (u.note = true ↔ s.mgc.flags &&& u.mgc.noteMask ≠ 0) ∧
      Answered u w.id (.done w.req []) ∧ u.cfs.nv = s.cfs.nv ∧
      (u.mgc.noteMask ≠ s.mgc.noteMask →
        Stores u w.id (.noteMask u.mgc.noteMask) ∧ ∀ v ∈ u.mgc.works, v.id = w.id → u.releasable v = false) ∧
      (u.mgc.noteMask = s.mgc.noteMask → u.cfs = s.cfs) ∧
      (∀ v, u.work w.id = some v → u.releasable v = true → u.owes (.request w.id) = false) ∧
      (∀ landed, (∀ x, u.cfs.writing = some x → x.entry.record.id ≠ .noteMask) →
        (u.cfs.atPowerOn landed []).noteMask = s.cfs.nv.noteMask) ∧ OnlyChanges [.mgc, .cfs] s u

/-- R94, R95, R128, R29, R5, R12, R13: UNLOCK of a user in lockdown is refused and changes nothing; otherwise UNLOCK opens the listed
ranges that it can, in the directions asked, puts the key of a SEALED one in its slot and leaves every other range and slot alone;
LOCK locks the listed ranges in their enabled directions.
The model's choices in it: log 3, 42, 46, and log 62 for the code of an undefined range that ERASER names. -/
def Obligations.UnlockAndLock : Prop :=
  ∀ (s : State) (w : Work),
    let q := w.req
    let listed (r : Fin 17) : Prop := (q.set 0).getLsbD r.val = true
    (s.readyFor .unlock = some w → q.authority ≠ 0 → s.lockdown = true → ∃ u : State, exec .unlock s = .next u.settle ∧
      Replied s u w.id (.refused q .lockdown []) ∧ OnlyChanges [.mgc] s u) ∧
    (s.readyFor .unlock = some w → q.authority = 0 ∨ s.lockdown = false →
      let opens (r : Fin 17) : Prop := listed r ∧ s.unlockCase q.authority w.credential r = .unlocked
      ∃ (u : State) (codes : List Byte), exec .unlock s = .next u.settle ∧
        (∀ r : Fin 17, opens r →
          u.rrs.ranges[r] = { s.rrs.ranges[r] with
            readLocked := s.rrs.ranges[r].readLocked && !dirReads (q.num 3 1)
            writeLocked := s.rrs.ranges[r].writeLocked && !dirWrites (q.num 3 1) } ∧
          (s.cph.slots[rangeSlot r].key = .sealed → ∃ e k,
            s.envelopeOf (.authority q.authority) (rangeSlot r) = some e ∧
            e.wrapped.opened (.credential w.credential) = some k ∧ u.cph.slots[rangeSlot r].key = .live k) ∧
          (s.cph.slots[rangeSlot r].key ≠ .sealed → u.cph.slots[rangeSlot r] = s.cph.slots[rangeSlot r])) ∧
        (∀ r : Fin 17, ¬opens r →
          u.rrs.ranges[r] = s.rrs.ranges[r] ∧ u.cph.slots[rangeSlot r] = s.cph.slots[rangeSlot r]) ∧
        u.cph.slots[tailSlot] = s.cph.slots[tailSlot] ∧
        u.rrs.bootDone = (s.rrs.bootDone || q.num 4 1 == 1) ∧
        u.rrs.bootImageWrite = (s.rrs.bootImageWrite && q.num 4 1 != 1) ∧
        u.rrs = { s.rrs with
          ranges := u.rrs.ranges, bootDone := u.rrs.bootDone, bootImageWrite := u.rrs.bootImageWrite } ∧
        u.cph.held = s.cph.held ∧
        codes.length = 17 ∧ (∀ r : Fin 17, codes[r.val]? =
          some (if (q.set 0).getLsbD r.val then (s.unlockCase q.authority w.credential r).code else 0)) ∧
        (∃ a b : BitVec 18, Replied s u w.id (.done q (be 3 a.toNat ++ be 3 b.toNat ++ codes)) ∧
          ∀ r : Fin 17, (a.getLsbD r.val = true ↔ opens r) ∧ (b.getLsbD r.val = true ↔ listed r ∧ ¬opens r)) ∧
        OnlyChanges [.rrs, .cph, .mgc] s u) ∧
    (s.readyFor .lock = some w →
      ∃ (u : State) (a : BitVec 18), exec .lock s = .next u.settle ∧
        (∀ r : Fin 17, u.rrs.ranges[r] =
          if s.isDefined r = true ∧ (q.set 0).getLsbD r.val = true then
            { s.rrs.ranges[r] with
              readLocked := s.rrs.ranges[r].readLocked || (dirReads (q.num 3 1) && s.rrs.ranges[r].cfg.policy.readEn)
              writeLocked := s.rrs.ranges[r].writeLocked || (dirWrites (q.num 3 1) && s.rrs.ranges[r].cfg.policy.writeEn) }
          else s.rrs.ranges[r]) ∧
        Replied s u w.id (.done q (be 3 a.toNat)) ∧
        (∀ r : Fin 17, a.getLsbD r.val = true ↔ u.rrs.ranges[r] ≠ s.rrs.ranges[r]) ∧
        (∀ i : Fin 18, (u.cph.slots[i].key = s.cph.slots[i].key ∨ u.cph.slots[i].key = .sealed) ∧
          u.cph.slots[i].uses = s.cph.slots[i].uses) ∧
        u.rrs = { s.rrs with ranges := u.rrs.ranges } ∧ u.cph.held = s.cph.held ∧
        OnlyChanges [.rrs, .cph, .rtb, .mgc] s u)

/-- R96: BOOT_DONE is of class ANY with no body; it sets boot-done, turns boot-image-write off, answers DONE and writes nothing to
the store; the gates of UNLOCK do not stop it.
The model's choices in it: log 3, 42. -/
def Obligations.BootDoneRule : Prop :=
  (∀ q : Request, ReqKind.bootDone.cls q = .any ∧ ReqKind.bootDone.size = 0) ∧
  (∀ (s : State) (q : Request), (s.named q).state = .enabled → s.throttled q.authority = none → s.engineInUse = false →
    s.stopped .bootDone q = none) ∧
  ∀ (s : State) (w : Work), s.readyFor .bootDone = some w →
    ∃ u : State, exec .bootDone s = .next u.settle ∧
      u.rrs = { s.rrs with bootDone := true, bootImageWrite := false } ∧
      Replied s u w.id ⟨.done, .none, 0, w.req.code, [], 0⟩ ∧ OnlyChanges [.rrs, .mgc] s u

/-- R13, R81, R104, R160: BOOT_IMAGE_WRITE, SET_FLOW (with what it does to hold), SET_DEADSTART and SET_RETENTION take effect at once and, but
for the first, queue their record, whose write DONE waits for.
The model's choices in it: log 3. -/
def Obligations.SettingsTakeEffect : Prop :=
  ∀ (s : State) (w : Work),
    let q := w.req
    let stored (u : State) (r : Record) : Prop :=
      Stores u w.id r ∧ u.cfs.nv = s.cfs.nv ∧ Replied s u w.id (.done q []) ∧
      ∀ v ∈ u.mgc.works, v.id = w.id → u.releasable v = false
    (s.readyFor .bootImageWrite = some w → ∃ u : State, exec .bootImageWrite s = .next u.settle ∧
      u.rrs = { s.rrs with bootImageWrite := decide (q.num 0 1 = 1) } ∧ Replied s u w.id (.done q []) ∧
      OnlyChanges [.rrs, .mgc] s u) ∧
    (s.readyFor .setFlow = some w → ∃ u : State, exec .setFlow s = .next u.settle ∧
      u.flow = ⟨q.num 0 1, q.num 1 1, q.num 2 1⟩ ∧
      u.stg = { s.stg with
        hold := if s.stg.hold then decide (q.num 1 1 < s.stg.staged.length) else decide (q.num 0 1 ≤ s.stg.staged.length) } ∧
      stored u (.flow u.flow) ∧ OnlyChanges [.flow, .stg, .mgc, .cfs] s u) ∧
    (s.readyFor .setDeadstart = some w → ∃ u : State, exec .setDeadstart s = .next u.settle ∧
      u.aut = { s.aut with dead := ⟨s.aut.dead.count, q.num 0 1⟩ } ∧ stored u (.deadStart u.aut.dead) ∧
      OnlyChanges [.aut, .mgc, .cfs] s u) ∧
    (s.readyFor .setRetention = some w → ∃ u : State, exec .setRetention s = .next u.settle ∧
      u.rtb = { s.rtb with limit := q.num 0 1 } ∧ stored u (.retention (q.num 0 1)) ∧
      OnlyChanges [.rtb, .mgc, .cfs] s u)

/-- R83, R85, R90, R91, R97, R98, R100: SET_AUTHORITY to UNSET leaves the target with full tries and no verifier, grants or envelopes;
that its limit becomes the requested one is the model's choice (log 53). With a credential the target gets it, full tries, its
grants, and one envelope for exactly each granted ACTIVE range whose key can be recovered, which opens with the new credential to
that key; without one it keeps its verifier and the envelopes of ranges still granted. A BLOCKED target is made UNSET only.
RESET_AUTHORITY gives the tries back and ends BLOCKED; a BLOCKED target without verifier becomes UNSET and its envelopes are
deleted. Its record is queued as the store takes it, BLOCKED where its tries are 0, so as it is in use wherever its limit is at
least 1 (R82, R97). Neither runs while every such request that is ready names an authority whose verify is in flight.
The model's choices in it: log 3, 40, 43, 53. -/
def Obligations.AuthoritiesAreManaged : Prop :=
  (∀ (s : State) (k : ReqKind) (c : Instr), k = .setAuthority ∧ c = .setAuthority ∨ k = .resetAuthority ∧ c = .resetAuthority →
    (∀ v ∈ s.mgc.works, v.stage = .ready → v.req.code = k.code →
      ∃ y ∈ s.mgc.works, y.inVerify = true ∧ y.req.authority = v.req.target) →
    exec c s = .next s) ∧
  ∀ (s : State) (w : Work),
    let q := w.req
    let t := q.target
    let a := s.aut.authorities[t]
    let limit := q.num 2 1
    let cleared := s.aut.throttle.set t none
    (s.readyFor .setAuthority = some w → t ≠ 0 →
      (q.askedState = .unset → ∃ u : State, exec .setAuthority s = .next u.settle ∧
        u.aut.authorities = s.aut.authorities.set t ⟨.unset, none, limit, limit, 0⟩ ∧ u.aut.throttle = cleared ∧ u.aut.dead = s.aut.dead ∧
        (∀ p : Fin 64, u.aut.envelopes[p] = (s.aut.envelopes[p]).filter fun e => e.owner != .authority t) ∧
        Replied s u w.id (.done q [0, 0, 0]) ∧ OnlyChanges [.aut, .mgc, .cfs] s u) ∧
      (∀ new, q.askedState ≠ .unset → a.state ≠ .blocked → q.newCredential = some new →
        let keyed := s.keyable q.grants w.credential
        let old := s.placesOf fun e => e.owner == .authority t
        (s.fits keyed.length old.length = false → ∃ u : State, exec .setAuthority s = .next u.settle ∧
          Replied s u w.id (.refused q .tableFull []) ∧ OnlyChanges [.mgc] s u) ∧
        (s.fits keyed.length old.length = true → ∃ u : State, exec .setAuthority s = .next u.settle ∧
          u.aut.authorities = s.aut.authorities.set t
            ⟨q.askedState, some (Config.verifierOf new), limit, limit, q.grants⟩ ∧ u.aut.throttle = cleared ∧ u.aut.dead = s.aut.dead ∧
          (∀ (p : Fin 64) (e : Envelope), s.aut.envelopes[p] = some e → e.owner ≠ .authority t →
            u.aut.envelopes[p] = some e) ∧
          (∀ (p : Fin 64) (e : Envelope), u.aut.envelopes[p] = some e → e.owner = .authority t →
            ∃ r ∈ keyed, e.range = rangeSlot r ∧
              e.wrapped.opened (.credential new) = s.recoverKey (rangeSlot r) w.credential) ∧
          (∀ r ∈ keyed, ∃ e, u.envelopeOf (.authority t) (rangeSlot r) = some e) ∧
          (∃ b : BitVec 18, Replied s u w.id (.done q (be 3 b.toNat)) ∧
            ∀ r : Fin 17, b.getLsbD r.val = true ↔ r ∈ s.activeGrants q.grants ∧ r ∉ keyed) ∧
          OnlyChanges [.aut, .mgc, .cfs] s u)) ∧
      (q.askedState ≠ .unset → a.state = .blocked ∨ (q.newCredential = none ∧ a.verifier = none) → ∃ u : State,
        exec .setAuthority s = .next u.settle ∧ Replied s u w.id (.refused q .badRequest []) ∧ OnlyChanges [.mgc] s u) ∧
      (q.askedState ≠ .unset → a.state ≠ .blocked → q.newCredential = none → a.verifier.isSome = true → ∃ u : State,
        exec .setAuthority s = .next u.settle ∧
        u.aut.authorities = s.aut.authorities.set t
          { a with state := q.askedState, limit := limit, remaining := min a.remaining limit, grants := q.grants } ∧
        u.aut.throttle = s.aut.throttle ∧ u.aut.dead = s.aut.dead ∧
        (∀ p : Fin 64, u.aut.envelopes[p] = (s.aut.envelopes[p]).filter fun e =>
          e.owner != .authority t || (q.grants.setWidth 18).getLsbD e.range.val) ∧
        OnlyChanges [.aut, .mgc, .cfs] s u)) ∧
    (s.readyFor .resetAuthority = some w → ∃ u : State, exec .resetAuthority s = .next u.settle ∧
      u.aut.authorities = s.aut.authorities.set t { a with
        remaining := a.limit
        state := if a.state = .blocked then (if a.verifier = none then .unset else .enabled) else a.state } ∧
      u.aut.throttle = cleared ∧ u.aut.dead = s.aut.dead ∧
      Stores u w.id (.authority t u.aut.authorities[t].stored) ∧
      (0 < a.limit → Stores u w.id (.authority t u.aut.authorities[t])) ∧
      (let gone (e : Envelope) : Bool := a.state == .blocked && a.verifier.isNone && e.owner == .authority t
       (∀ p : Fin 64, u.aut.envelopes[p] = (s.aut.envelopes[p]).filter fun e => !gone e) ∧
       ∀ (p : Fin 64) (e : Envelope), s.aut.envelopes[p] = some e → gone e = true → Stores u w.id (.envelope p none)) ∧
      Replied s u w.id (.done q []) ∧ OnlyChanges [.aut, .mgc, .cfs] s u)

/-- R99, R85, R90: an authority that sets its own credential gets the new verifier, and its envelopes that opened with the old
credential open with the new one to the same keys; ADMIN setting another's builds the target's envelopes afresh. An UNSET target is
BAD_REQUEST for ADMIN acting for another, NOT_PERMITTED for itself (log 43). It does not run while every such request that is ready
names an authority whose verify is in flight.
The model's choices in it: log 3, 26, 40, 43, 59. -/
def Obligations.CredentialsAreReplaced : Prop :=
  (∀ s : State, (∀ v ∈ s.mgc.works, v.stage = .ready → v.req.code = ReqKind.setCredential.code →
      ∃ y ∈ s.mgc.works, y.inVerify = true ∧ y.req.authority = v.req.target) →
    exec .setCredential s = .next s) ∧
  ∀ (s : State) (w : Work), s.readyFor .setCredential = some w →
    let q := w.req
    let t := q.target
    let a := s.aut.authorities[t]
    let new : Credential := BitVec.ofNat 256 (q.num 1 32)
    let verifierSet (u : State) : Prop :=
      exec .setCredential s = .next u.settle ∧
      u.aut.authorities = s.aut.authorities.set t { a with verifier := some (Config.verifierOf new) } ∧
      u.aut.throttle = s.aut.throttle ∧ u.aut.dead = s.aut.dead ∧ OnlyChanges [.aut, .mgc, .cfs] s u
    (a.state = .unset → ∃ u : State, exec .setCredential s = .next u.settle ∧
      Replied s u w.id (.refused q (if t = q.authority then .notPermitted else .badRequest) []) ∧ OnlyChanges [.mgc] s u) ∧
    (a.state ≠ .unset → t = q.authority → ∃ u : State, verifierSet u ∧ Replied s u w.id (.done q [0, 0, 0]) ∧
      ∀ (p : Fin 64) (e : Envelope), s.aut.envelopes[p] = some e →
        (e.owner ≠ .authority t → u.aut.envelopes[p] = some e) ∧
        (e.owner = .authority t → ∀ k, e.wrapped.opened (.credential w.credential) = some k →
          ∃ e', u.aut.envelopes[p] = some e' ∧ e'.owner = e.owner ∧ e'.range = e.range ∧
            e'.wrapped.opened (.credential new) = some k)) ∧
    (a.state ≠ .unset → t ≠ q.authority → q.authority = 0 →
      let keyed := s.keyable a.grants w.credential
      let old := s.placesOf fun e => e.owner == .authority t
      (s.fits keyed.length old.length = false → ∃ u : State, exec .setCredential s = .next u.settle ∧
        Replied s u w.id (.refused q .tableFull []) ∧ OnlyChanges [.mgc] s u) ∧
      (s.fits keyed.length old.length = true → ∃ u : State, verifierSet u ∧
        (∀ (p : Fin 64) (e : Envelope), s.aut.envelopes[p] = some e → e.owner ≠ .authority t →
          u.aut.envelopes[p] = some e) ∧
        (∀ (p : Fin 64) (e : Envelope), u.aut.envelopes[p] = some e → e.owner = .authority t →
          ∃ r ∈ keyed, e.range = rangeSlot r ∧
            e.wrapped.opened (.credential new) = s.recoverKey (rangeSlot r) w.credential) ∧
        ∀ r ∈ keyed, ∃ e, u.envelopeOf (.authority t) (rangeSlot r) = some e))

/-- R7, R8, R23, R85: DEFINE_RANGES answers the first check that fails and changes nothing, or gives every index its entry: a removed
range its undefined record, an ABSENT slot and no envelope; a moved or new one its extent and policy, flags equal to the enables, a
fresh key (SEALED where both enables are on) and its ADMIN and DEVICE envelopes; an unchanged one its policy.
The model's choices in it: log 3, 44, 45. -/
def Obligations.RangesAreDefined : Prop :=
  ∀ (s : State) (w : Work), s.readyFor .defineRanges = some w →
    let q := w.req
    (∀ r, s.defineChecks q w.credential = some r → ∃ u : State, exec .defineRanges s = .next u.settle ∧
      Replied s u w.id r ∧ OnlyChanges [.mgc] s u) ∧
    (s.defineChecks q w.credential = none → s.rrs.capacity.isSome = true ∨ s.wsq.wipe.state ≠ .sweeping →
      ∃ u : State, exec .defineRanges s = .next u.settle ∧ Replied s u w.id (.done q []) ∧
        u.rrs.ranges[0] = s.rrs.ranges[0] ∧ u.cph.slots[0] = s.cph.slots[0] ∧ u.cph.slots[tailSlot] = s.cph.slots[tailSlot] ∧
        u.rrs = { s.rrs with ranges := u.rrs.ranges, capacity := u.rrs.capacity } ∧
        u.aut = { s.aut with envelopes := u.aut.envelopes } ∧ u.cph.held = s.cph.held ∧
        KeepsEnvelopes s u (fun e => ∀ r : Fin 17, r ≠ 0 → e.range = rangeSlot r →
          s.entryClass q r = .idle ∨ s.entryClass q r = .unchanged ∧ e.owner ≠ .device) ∧
        (∀ c, s.rrs.capacity = some c → u.rrs.capacity = some c) ∧
        (∀ c, s.rrs.capacity = none → s.rrs.offered = some c →
          u.rrs.capacity = if u.layoutFits c then some c else none) ∧
        (∀ r : Fin 17, r ≠ 0 →
          let x := q.entry r
          let g := s.rrs.ranges[r]
          match s.entryClass q r with
          | .idle => u.rrs.ranges[r] = g ∧ u.cph.slots[rangeSlot r] = s.cph.slots[rangeSlot r]
          | .unchanged => u.rrs.ranges[r] =
              if g.cfg.policy = x.policy then g
              else ⟨{ g.cfg with policy := x.policy }, g.readLocked && x.policy.readEn, g.writeLocked && x.policy.writeEn⟩
          | .removed => u.rrs.ranges[r] = ⟨⟨none, ⟨false, false, false, false, false⟩, false⟩, false, false⟩ ∧
              u.cph.slots[rangeSlot r].key = .absent ∧
              ∀ (p : Fin 64) (e : Envelope), u.aut.envelopes[p] = some e → e.range ≠ rangeSlot r
          | .moved | .new =>
              u.rrs.ranges[r] = ⟨⟨x.extent, x.policy, false⟩, x.policy.readEn, x.policy.writeEn⟩ ∧
              (∀ (p : Fin 64) (e : Envelope), u.aut.envelopes[p] = some e → e.range = rangeSlot r →
                e.owner = .authority 0 ∨ e.owner = .device ∧ x.policy.anyLock = false) ∧
              ∃ j, s.draws ≤ j ∧ j < u.draws ∧
                u.cph.slots[rangeSlot r].key =
                  (if x.policy.readEn && x.policy.writeEn then .sealed else .live (Config.freshKey j)) ∧
                ((u.envelopeOf (.authority 0) (rangeSlot r)).bind fun e => e.wrapped.opened (.credential w.credential)) =
                  some (Config.freshKey j) ∧
                (x.policy.anyLock = false →
                  ((u.envelopeOf .device (rangeSlot r)).bind fun e => e.wrapped.opened .root) = some (Config.freshKey j))) ∧
        OnlyChanges [.rrs, .cph, .aut, .mgc, .cfs, .draws] s u)

/-- R9, R10, R85: MODIFY_POLICY sets, clears and toggles the flags of each range of its set; an enable that turns off opens its
direction; the last one off makes a SEALED slot LIVE with the recovered key and creates the DEVICE envelope; the first one on
deletes it. A set with an undefined range, or envelopes that do not fit, change nothing.
The model's choices in it: log 3, 40. -/
def Obligations.PolicyIsModified : Prop :=
  ∀ (s : State) (w : Work), s.readyFor .modifyPolicy = some w →
    let q := w.req
    let listed (r : Fin 17) : Prop := (q.set 0).getLsbD r.val = true
    let want (r : Fin 17) : Policy := q.newPolicy s.rrs.ranges[r].cfg.policy
    let changed := (rangesOf (q.set 0)).filter fun r => want r != s.rrs.ranges[r].cfg.policy
    let needs := changed.map fun r => s.policyNeeds r (want r) w.credential
    let fits := s.fits (needs.map (·.1)).sum (needs.map (·.2)).sum
    (∀ (p : Policy) (i : Nat), i < 5 → (q.newPolicy p).toBits.getLsbD i =
      (((p.toBits.getLsbD i || (q.num 3 1).testBit i) && !(q.num 4 1).testBit i) ^^ (q.num 5 1).testBit i)) ∧
    (∀ r, listed r → s.isDefined r = false → ∃ u : State, exec .modifyPolicy s = .next u.settle ∧
      Replied s u w.id (.refused q .badRequest []) ∧ OnlyChanges [.mgc] s u) ∧
    ((∀ r, listed r → s.isDefined r = true) → fits = false → ∃ u : State, exec .modifyPolicy s = .next u.settle ∧
      Replied s u w.id (.refused q .tableFull []) ∧ OnlyChanges [.mgc] s u) ∧
    ((∀ r, listed r → s.isDefined r = true) → fits = true → ∃ u : State, exec .modifyPolicy s = .next u.settle ∧
      (∀ r : Fin 17,
        let g := s.rrs.ranges[r]
        u.rrs.ranges[r] = if r ∈ changed then
            ⟨{ g.cfg with policy := want r }, g.readLocked && (want r).readEn, g.writeLocked && (want r).writeEn⟩
          else g) ∧
      (∀ r ∈ changed, s.rrs.ranges[r].cfg.erased = false →
        (s.rrs.ranges[r].cfg.policy.anyLock = false → (want r).anyLock = true →
          u.envelopeOf .device (rangeSlot r) = none) ∧
        (s.rrs.ranges[r].cfg.policy.anyLock = true → (want r).anyLock = false →
          ∀ k, s.recoverKey (rangeSlot r) w.credential = some k →
            ((u.envelopeOf .device (rangeSlot r)).bind fun e => e.wrapped.opened .root) = some k ∧
            (s.cph.slots[rangeSlot r].key = .sealed → u.cph.slots[rangeSlot r].key = .live k))) ∧
      (∀ r : Fin 17, r ∉ changed → u.cph.slots[rangeSlot r] = s.cph.slots[rangeSlot r]) ∧
      (∃ b : BitVec 18, Replied s u w.id (.done q (be 3 b.toNat)) ∧
        ∀ r : Fin 17, b.getLsbD r.val = true ↔ r ∈ changed ∧ s.rrs.ranges[r].cfg.erased = false ∧
          s.rrs.ranges[r].cfg.policy.anyLock = true ∧ (want r).anyLock = false ∧
          s.recoverKey (rangeSlot r) w.credential = none) ∧
      u.rrs = { s.rrs with ranges := u.rrs.ranges } ∧ u.aut = { s.aut with envelopes := u.aut.envelopes } ∧
      u.cph.held = s.cph.held ∧
      KeepsEnvelopes s u (fun e => e.owner = .device → ∀ r ∈ changed, e.range ≠ rangeSlot r) ∧
      (changed = [] → u.cfs = s.cfs) ∧ OnlyChanges [.rrs, .cph, .aut, .mgc, .cfs] s u)

/-- R14, R2, R23: SET_BOOT_WINDOW answers the first check that fails and changes nothing, or sets the window; a change of W gives
the tail a fresh key, ACTIVE, with its ADMIN and DEVICE envelopes.
The model's choices in it: log 3, 44. -/
def Obligations.BootWindowIsSet : Prop :=
  ∀ (s : State) (w : Work), s.readyFor .setBootWindow = some w →
    let q := w.req
    (∀ r, s.windowChecks q = some r → ∃ u : State, exec .setBootWindow s = .next u.settle ∧
      Replied s u w.id r ∧ OnlyChanges [.mgc] s u) ∧
    (s.windowChecks q = none → ∃ u : State, exec .setBootWindow s = .next u.settle ∧ Replied s u w.id (.done q []) ∧
      u.rrs.window = ⟨q.num 0 3, decide (q.num 3 1 = 1)⟩ ∧
      u.rrs = { s.rrs with window := u.rrs.window, capacity := u.rrs.capacity, tailErased := u.rrs.tailErased } ∧
      u.aut = { s.aut with envelopes := u.aut.envelopes } ∧ u.cph.held = s.cph.held ∧
      KeepsEnvelopes s u (fun e => e.range ≠ tailSlot) ∧
      (∀ c, s.rrs.capacity = some c → u.rrs.capacity = some c) ∧
      (∀ r : Fin 17, u.cph.slots[rangeSlot r] = s.cph.slots[rangeSlot r]) ∧
      Stores u w.id (.bootWindow u.rrs.window) ∧
      (q.num 0 3 = s.rrs.window.w →
        u.cph.slots[tailSlot] = s.cph.slots[tailSlot] ∧ u.rrs.tailErased = s.rrs.tailErased ∧
          u.aut.envelopes = s.aut.envelopes) ∧
      (q.num 0 3 ≠ s.rrs.window.w →
        u.cph.slots[tailSlot].key = .live (Config.freshKey s.draws) ∧ u.rrs.tailErased = false ∧
        ((u.envelopeOf (.authority 0) tailSlot).bind fun e => e.wrapped.opened (.credential w.credential)) =
          some (Config.freshKey s.draws) ∧
        ((u.envelopeOf .device tailSlot).bind fun e => e.wrapped.opened .root) = some (Config.freshKey s.draws) ∧
        ∀ (p : Fin 64) (e : Envelope), u.aut.envelopes[p] = some e → e.range = tailSlot →
          e.owner = .authority 0 ∨ e.owner = .device) ∧
      OnlyChanges [.rrs, .cph, .aut, .mgc, .cfs, .draws] s u)

/-- R123, R124, R125, R137, R139, R140, R132, R133, R121: SET_RESPONSE replaces the configuration, evaluates every effective action and
answers the sources whose action started; the same configuration again does nothing. An action above NOTE that starts locks every
defined range in its enabled directions and sets ACTION_STARTED; an erase action hands its order on unless the done mark skips it,
the mark becomes the action, every defined range and the tail are ERASED, and the wipe record takes the order. ACK_SOURCES clears
the named pending sources but ADMIN_BLOCKED, with their done marks, and answers both sets.
The model's choices in it: log 3, 14, 35. -/
def Obligations.ResponseIsConfigured : Prop :=
  ∀ (s : State) (w : Work),
    let q := w.req
    (s.readyFor .setResponse = some w →
      (q.response = s.rsp.cfg → ∃ u : State, exec .setResponse s = .next u.settle ∧
        Replied s u w.id (.done q [0]) ∧ OnlyChanges [.mgc] s u) ∧
      (q.response ≠ s.rsp.cfg → ∃ (u : State) (b : BitVec 6), exec .setResponse s = .next u.settle ∧
        u.rsp.cfg = q.response ∧ u.rsp.src.pending = s.rsp.src.pending ∧
        (∀ i : Fin 6, u.rsp.effective[i] =
          if (s.rsp.src.pending.getLsbD i.val && q.response.enables.getLsbD (q.response.map[i]).val && q.response.armed) = true
          then some q.response.actions[q.response.map[i]] else none) ∧
        Stores u w.id (.responseCfg q.response) ∧ Answered u w.id (.done q (be 1 b.toNat)) ∧
        OnlyChanges actionBlocks s u ∧
        (∀ i : Fin 6, b.getLsbD i.val = true ↔ u.rsp.effective[i].isSome = true ∧ u.rsp.effective[i] ≠ s.rsp.effective[i]) ∧
        ActionsStarted s u (fun i a => u.rsp.effective[i] = some a ∧ s.rsp.effective[i] ≠ some a) ∧
        ((∃ i : Fin 6, u.rsp.src.marks[i] ≠ s.rsp.src.marks[i]) → Stores u w.id (.source u.rsp.src)))) ∧
    (s.readyFor .ackSources = some w →
      let named : BitVec 6 := BitVec.ofNat 6 (q.num 0 1)
      ∃ (u : State) (gone kept : BitVec 6), exec .ackSources s = .next u.settle ∧
        (∀ i : Fin 6, (gone.getLsbD i.val = true ↔
            named.getLsbD i.val = true ∧ s.rsp.src.pending.getLsbD i.val = true ∧ i ≠ 1) ∧
          (kept.getLsbD i.val = true ↔ named.getLsbD i.val = true ∧ i = 1) ∧
          (u.rsp.src.pending.getLsbD i.val = true ↔ s.rsp.src.pending.getLsbD i.val = true ∧ gone.getLsbD i.val = false) ∧
          (gone.getLsbD i.val = true → u.rsp.src.marks[i] = .none)) ∧
        u.rsp.cfg = s.rsp.cfg ∧ Answered u w.id (.done q (be 1 gone.toNat ++ be 1 kept.toNat)) ∧
        OnlyChanges actionBlocks s u ∧
        (gone = 0 → OnlyChanges [.mgc] s u))

/-- R31, R64, R136, R137, R139, R149: WIPE refuses a set with an undefined range and DEFERs a second sweep; else every listed range is
ERASED at once with its slot DESTROYED and its envelopes gone, every context that holds one of its segments is aborted, and the
wipe record starts ERASING with the order, or takes the list into its erase set, or also takes the order as the sweep to follow an
erase. An order is full where it sweeps every defined range and the tail.
The model's choices in it: log 3, 14, 15, 27. -/
def Obligations.WipeErasesAtOnce : Prop :=
  ∀ (s : State) (w : Work), s.readyFor .wipe = some w →
    let q := w.req
    let listed (i : Fin 18) : Prop := (q.set 0).getLsbD i.val = true
    let m := Method.ofCode (q.num 3 1)
    let full : Prop := m ≠ .eraseOnly ∧ listed tailSlot ∧ ∀ r : Fin 17, s.isDefined r = true → listed (rangeSlot r)
    ((∃ r : Fin 17, listed (rangeSlot r) ∧ s.isDefined r = false) → ∃ u : State, exec .wipe s = .next u.settle ∧
      Replied s u w.id (.refused q .badRequest []) ∧ OnlyChanges [.mgc] s u) ∧
    ((∀ r : Fin 17, listed (rangeSlot r) → s.isDefined r = true) →
      (m ≠ .eraseOnly → s.sweepRunning = true → ∃ u : State, exec .wipe s = .next u.settle ∧
        Replied s u w.id (.defer q 1000) ∧ OnlyChanges [.mgc] s u) ∧
      (m = .eraseOnly ∨ s.sweepRunning = false → ∃ u : State, exec .wipe s = .next u.settle ∧
        (∀ r : Fin 17, u.rrs.ranges[r].cfg.erased = (s.rrs.ranges[r].cfg.erased || (q.set 0).getLsbD r.val)) ∧
        u.rrs.tailErased = (s.rrs.tailErased || (q.set 0).getLsbD 17) ∧
        (∀ i, listed i → s.cph.slots[i].key ≠ .absent → u.cph.slots[i] = ⟨.destroyed, 0⟩) ∧
        (∀ i, ¬listed i → u.cph.slots[i].key = s.cph.slots[i].key ∨ u.cph.slots[i].key = .sealed) ∧
        (∀ p : Fin 64, u.aut.envelopes[p] = (s.aut.envelopes[p]).filter fun e => !(q.set 0).getLsbD e.range.val) ∧
        u.aut = { s.aut with envelopes := u.aut.envelopes } ∧
        u.rrs = { s.rrs with ranges := u.rrs.ranges, tailErased := u.rrs.tailErased } ∧
        (∀ r : Fin 17, u.rrs.ranges[r] = { s.rrs.ranges[r] with cfg.erased := u.rrs.ranges[r].cfg.erased }) ∧
        (∀ t c i, s.ctx t = some c → listed i → c.holds i = true →
          u.ctx t = none ∨ ∃ c', u.ctx t = some c' ∧ c'.state = .aborting) ∧
        (∀ i, listed i → (u.wsq.wipe.eraseSet.getLsbD i.val || s.storedErased.getLsbD i.val) = true) ∧
        (s.wsq.wipe.state = .idle ∨ s.wsq.wipe.state = .done →
          u.wsq.wipe.state = .erasing ∧ u.wsq.wipe.scope = q.set 0 ∧ u.wsq.wipe.method = m ∧ u.wsq.wipe.cursor = none ∧
            u.wsq.wipe.errors = 0 ∧ u.wsq.wipe.outcome = none ∧ u.wsq.wipe.origin = some .management ∧
            (u.wsq.wipe.full = true ↔ full)) ∧
        (s.wsq.wipe.state = .erasing → s.wsq.wipe.method = .eraseOnly → m ≠ .eraseOnly →
          u.wsq.wipe = { s.wsq.wipe with
            scope := q.set 0, method := m, full := u.wsq.wipe.full, origin := some .management, cursor := none
            errors := 0, eraseSet := u.wsq.wipe.eraseSet } ∧ (u.wsq.wipe.full = true ↔ full)) ∧
        (s.wsq.wipe.state = .erasing ∨ s.wsq.wipe.state = .sweeping → m = .eraseOnly →
          u.wsq.wipe = { s.wsq.wipe with eraseSet := u.wsq.wipe.eraseSet }) ∧
        Stores u w.id (.wipe u.wsq.wipe) ∧ u.cfs.nv = s.cfs.nv ∧
        Answered u w.id (.done q (be 3 (q.set 0).toNat ++
          be 3 (if m = .eraseOnly then (0 : BitVec 18) else q.set 0).toNat ++ [0])) ∧
        OnlyChanges actionBlocks s u))

/-- R30, R150, R23: REKEY answers the first check that fails, or gives an ERASED range or tail a fresh key, ACTIVE, its flags equal to
its enables, the ADMIN envelope and, without locks, the DEVICE envelope, and takes it out of the sweep's scope.
The model's choices in it: log 3, 38. -/
def Obligations.RekeyGivesFreshKey : Prop :=
  ∀ (s : State) (w : Work), s.readyFor .rekey = some w →
    let q := w.req
    let i := q.index
    let opens (u : State) (o : Owner) (x : Secret) : Prop :=
      ((u.envelopeOf o i).bind fun e => e.wrapped.opened x) = some (Config.freshKey s.draws)
    (∀ r, s.rekeyChecks q = some r → ∃ u : State, exec .rekey s = .next u.settle ∧
      Replied s u w.id r ∧ OnlyChanges [.mgc] s u) ∧
    (s.rekeyChecks q = none → s.placesOf (ofRange i) = [] → ∃ u : State, exec .rekey s = .next u.settle ∧
      Replied s u w.id (.done q []) ∧ u.isErased i = false ∧ opens u (.authority 0) (.credential w.credential) ∧
      (s.lockFree i = true → opens u .device .root) ∧ u.draws = s.draws + 1 ∧
      (∀ r : Fin 17, rangeSlot r ≠ i → u.rrs.ranges[r] = s.rrs.ranges[r] ∧
        u.cph.slots[rangeSlot r] = s.cph.slots[rangeSlot r]) ∧
      (∀ r : Fin 17, rangeSlot r = i →
        let p := s.rrs.ranges[r].cfg.policy
        u.rrs.ranges[r] = ⟨{ s.rrs.ranges[r].cfg with erased := false }, p.readEn, p.writeEn⟩ ∧
        u.cph.slots[i].key = if p.readEn && p.writeEn then .sealed else .live (Config.freshKey s.draws)) ∧
      (i = tailSlot → u.cph.slots[i].key = .live (Config.freshKey s.draws)) ∧
      u.rrs = { s.rrs with ranges := u.rrs.ranges, tailErased := u.rrs.tailErased } ∧
      u.aut = { s.aut with envelopes := u.aut.envelopes } ∧ u.cph.held = s.cph.held ∧ KeepsEnvelopes s u (fun _ => True) ∧
      u.wsq = { s.wsq with wipe := { s.wsq.wipe with scope := u.wsq.wipe.scope } } ∧
      (∀ j : Fin 18, u.wsq.wipe.scope.getLsbD j.val = (s.wsq.wipe.scope.getLsbD j.val && j != i)) ∧
      OnlyChanges [.rrs, .cph, .aut, .wsq, .cfs, .mgc, .draws] s u)

/-! ### Power-on (5.6, 12.1) -/

/-- R101, R1, R4, R82, R84, R103, R118, R123, R138, R147, R151, R161, R174, R186: what every power-on leaves: no context, no capacity, empty buffers and
queues, the own IDENTIFY waiting, the bridge AWAKE with nothing retained, no request, POWER_ON set; each live lock flag equal to
its enable; each authority as stored, or BLOCKED where its record fails its check; no LIVE slot where a lock is enabled or the
range is ERASED; a START_UP conversion running unless the bind policy is OFF; the ranges of the stored erase set ERASED and DESTROYED
with their writes queued again; no envelope of an ERASED or undefined range, and no two of one owner and range (log 22). That the
converter's phase start reads 0 in IDLE and no lane carries a frame is the model's choice (log 12).
The model's choices in it: log 11, 12, 22, 51. -/
def Obligations.PowerOnLeaves : Prop :=
  ∀ (s : State) (kept landed : Bool) (corrupt : List Record),
    let nv := s.cfs.atPowerOn landed corrupt
    ∃ u : State, exec (.powerOn kept landed corrupt) s = .next u.settle ∧
      (∀ t, u.ctx t = none) ∧ u.stg = ⟨[], false, []⟩ ∧ u.cph.held = [] ∧ u.mar = ⟨[], true, none, 0, []⟩ ∧
      u.fcp = ⟨.idle, tab fun _ => SeqState.start, [], none⟩ ∧ u.mcp = ⟨.idle, tab fun _ => Lane.start, [], none⟩ ∧
      u.rrs.capacity = none ∧ u.rrs.offered = none ∧ u.rrs.bootDone = false ∧ u.rrs.bootImageWrite = false ∧
      u.bridge = .starting ∧ u.rtb.sleep = .awake ∧ u.rtb.retained = [] ∧ u.rtb.key = none ∧ u.rtb.timer = .stopped ∧
      u.mgc.channel = .idle ∧ u.mgc.heldReply = none ∧ u.mgc.mark = none ∧ u.mgc.works = [] ∧
      u.mgc.flags &&& 0x0001 ≠ 0 ∧ (kept = true → s.rtb.retained ≠ [] → u.mgc.flags &&& 0x1000 ≠ 0) ∧
      (nv.allPass = false → u.mgc.flags &&& 0x0400 ≠ 0 ∧ u.rsp.src.pending.getLsbD 5 = true) ∧
      (∀ r : Fin 17, u.rrs.ranges[r].readLocked = u.rrs.ranges[r].cfg.policy.readEn ∧
        u.rrs.ranges[r].writeLocked = u.rrs.ranges[r].cfg.policy.writeEn) ∧
      (∀ i : Fin 8, u.aut.authorities[i] = if nv.authorities[i].ok then nv.authorities[i].val else Authority.failClosed i) ∧
      (∀ r : Fin 17, u.rrs.ranges[r].cfg.policy.anyLock = true ∨ u.rrs.ranges[r].cfg.erased = true →
        u.cph.slots[rangeSlot r].isLive = false) ∧
      (let d : DeadStart := if nv.deadStart.ok then nv.deadStart.val else ⟨0, 0⟩
       u.aut.dead = if (d.limit ≠ 0 ∧ d.count = d.limit) ∨ d.count = 250 then d else ⟨d.count + 1, d.limit⟩) ∧
      (∀ i : Fin 18, u.cph.slots[i].uses = 0) ∧
      (let b : BayRecord := if nv.bay.ok then nv.bay.val else ⟨none, .strict, .standard, false⟩
       u.bsc = if b.policy = .off then ⟨.idle, 0, none, none, none, none, false, b⟩
         else ⟨.zeroing, s.clock, some ⟨.binding, b.routine, [.startUp]⟩, none, none, none, true, b⟩) ∧
      (let x : WipeRec := if nv.wipe.ok then nv.wipe.val else ⟨.done, 0, .eraseOnly, false, none, 0, 0, some .incomplete, none⟩
       (∀ i : Fin 18, x.eraseSet.getLsbD i.val = true → u.isErased i = true ∧ u.cph.slots[i].key = .destroyed ∧
         ∃ e ∈ u.storeEntries, e.record.id = rangeRecord i ∧ Writer.erase ∈ e.writers) ∧
       ((∀ i : Fin 6, u.rsp.effective[i] = none) → u.wsq = ⟨x, none, false,
         if x.eraseSet ≠ 0 then .writing else if x.state = .erasing then .closing else .none, false, none⟩)) ∧
      (∀ (p : Fin 64) (e : Envelope), u.aut.envelopes[p] = some e → u.isErased e.range = false ∧
        ∀ r : Fin 17, e.range = rangeSlot r → u.isDefined r = true) ∧
      (∀ (p p' : Fin 64) (e e' : Envelope), u.aut.envelopes[p] = some e → u.aut.envelopes[p'] = some e' →
        e.owner = e'.owner → e.range = e'.range → p = p') ∧
      u.clock = s.clock ∧ u.draws = s.draws ∧ u.pending = s.pending

/-! ### Invariants of every step -/

/-- R5, R2, R4, R7, R14, R1: a live lock flag stays on only under its enable; while C is present the layout fits it; the user ranges
stay aligned to 8 and do not overlap, a power-on loading them so from a store that holds them so; and only a power-on changes C
once it is present.
The model's choices in it: log 44. -/
def Obligations.RangeTableInvariant : Prop :=
  (∀ s t : State, LockInv s → step s = .next t → LockInv t) ∧
  (∀ s t : State, LayoutInv s → step s = .next t → LayoutInv t) ∧
  (∀ s t : State, ExtentInv s → step s = .next t → ExtentInv t ∨ ∃ a b l cs, s.pending = .powerOn a b l :: cs) ∧
  (∀ (s t : State) (kept landed : Bool) (corrupt : List Record),
    let nv := s.cfs.atPowerOn landed corrupt
    UserExtentsOk (fun r => nv.ranges[r].val.extent) (fun r => nv.ranges[r].ok) →
    exec (.powerOn kept landed corrupt) s = .next t → ExtentInv t) ∧
  ∀ (s t : State) (c : Nat), s.rrs.capacity = some c → step s = .next t →
    t.rrs.capacity = some c ∨ ∃ a b l cs, s.pending = .powerOn a b l :: cs

/-- R187, R190, R123: the store queue keeps its form: at most 8 entries, no record named twice, writes waiting only behind a full queue,
the head started whenever no write is in progress and the store is not paused. R56: after every step the media timer of an issued
tag runs exactly while the tag does not wait on the bridge. R123: after every step the effective action of each source is the one
its level, the enables and ARMED give it.
The model's choices in it: log 13, 20. -/
def Obligations.StoreAndTimerInvariants : Prop :=
  (∀ s t : State, StoreInv s → step s = .next t → StoreInv t) ∧
  (∀ s t : State, TimerInv s → step s = .next t → TimerInv t) ∧
  ∀ s t : State, EffectiveInv s → step s = .next t → EffectiveInv t

/-- R25, R20, R27, R31, R60: after every step the use count of each slot is the number of segments that hold a use of it, and a range
locked in both directions keeps a LIVE slot only while a use of it is counted. -/
def Obligations.UseCountInvariant : Prop :=
  (∀ s t : State, UsesInv s → step s = .next t → UsesInv t) ∧
  ∀ s t : State, ChannelInv s → RetainedInv s → SealInv s → step s = .next t → SealInv t

/-- R53, R60, R66, R68, R69: after every step the staged sectors and the outstanding write grants together fit 64 places, and only
WRITE and SEC_SEND contexts hold grants or ungranted sectors, which with the sectors received make up their command. R77: at most
32 media commands are outstanding.
The model's choices in it: log 16. -/
def Obligations.StagingNeverOverflows : Prop :=
  (∀ s t : State, CreditInv s → step s = .next t → CreditInv t) ∧
  ∀ s t : State, s.outstanding ≤ 32 → step s = .next t → t.outstanding ≤ 32

/-- R174 to R177: after every step at most one request that is not detached is worked, exactly while WORKING, and the held reply and its
mark fit the channel's state. -/
def Obligations.ChannelInvariant : Prop :=
  ∀ s t : State, ChannelInv s → step s = .next t → ChannelInv t

/-- R4, R28, R31, R32, R137, R147, R151, R152, R155, R156: after every step an ERASED range or tail has no key, no key is retained
while AWAKE or of a range that is ERASED or undefined, and a bridge that is not AWAKE has no command in hand and no request in its
verify; requests that a link reset detached may still wait for their writes.
The model's choices in it: log 3. -/
def Obligations.ErasedKeysStayGone : Prop :=
  ∀ s t : State, SleepInv s → RetainedInv s → ErasedInv s → step s = .next t →
    SleepInv t ∧ RetainedInv t ∧ ErasedInv t

/-- R101, R4, R28, R77, R174, R187: the state right after reset meets every invariant, no media command is outstanding, and is what
a power-on of a part as shipped leaves (log 12). -/
def Obligations.ResetMeetsInvariants : Prop :=
  (LockInv State.reset ∧ LayoutInv State.reset ∧ StoreInv State.reset ∧ TimerInv State.reset ∧ UsesInv State.reset ∧
    CreditInv State.reset ∧ ChannelInv State.reset ∧ SleepInv State.reset ∧ RetainedInv State.reset ∧
    ErasedInv State.reset ∧ ExtentInv State.reset ∧ EffectiveInv State.reset ∧ SealInv State.reset ∧
    State.reset.outstanding = 0) ∧
  exec (.powerOn false false []) { State.reset with cfs := ⟨Nv.shipped, [], none, [], []⟩ } = .next State.reset
end

