-- ==== Sys2Proof/Laws/State.lean ====
section
/-! SUPPORT. What the named record updates change and leave alone, block by block, each true by unfolding. -/

namespace Sys2Proof.Machine

/-- Setting event flags changes the flags only (R181). -/
@[simp] theorem State.raiseSet_frame (s : State) (f : BitVec 13) :
    (s.raiseSet f).fcp = s.fcp ∧ (s.raiseSet f).mcp = s.mcp ∧ (s.raiseSet f).rrs = s.rrs ∧
    (s.raiseSet f).cph = s.cph ∧ (s.raiseSet f).cxm = s.cxm ∧ (s.raiseSet f).stg = s.stg ∧
    (s.raiseSet f).flow = s.flow ∧ (s.raiseSet f).mar = s.mar ∧ (s.raiseSet f).aut = s.aut ∧
    (s.raiseSet f).bsc = s.bsc ∧ (s.raiseSet f).rsp = s.rsp ∧ (s.raiseSet f).wsq = s.wsq ∧
    (s.raiseSet f).rtb = s.rtb ∧ (s.raiseSet f).cfs = s.cfs ∧ (s.raiseSet f).clock = s.clock ∧
    (s.raiseSet f).draws = s.draws ∧ (s.raiseSet f).pending = s.pending ∧
    (s.raiseSet f).mgc = { s.mgc with flags := s.mgc.flags ||| f } :=
  ⟨rfl, rfl, rfl, rfl, rfl, rfl, rfl, rfl, rfl, rfl, rfl, rfl, rfl, rfl, rfl, rfl, rfl, rfl⟩

/-- Setting one event flag changes the flags only (R181). -/
@[simp] theorem State.raise_frame (s : State) (f : Flag) :
    (s.raise f).fcp = s.fcp ∧ (s.raise f).mcp = s.mcp ∧ (s.raise f).rrs = s.rrs ∧ (s.raise f).cph = s.cph ∧
    (s.raise f).cxm = s.cxm ∧ (s.raise f).stg = s.stg ∧ (s.raise f).flow = s.flow ∧ (s.raise f).mar = s.mar ∧
    (s.raise f).aut = s.aut ∧ (s.raise f).bsc = s.bsc ∧ (s.raise f).rsp = s.rsp ∧ (s.raise f).wsq = s.wsq ∧
    (s.raise f).rtb = s.rtb ∧ (s.raise f).cfs = s.cfs ∧ (s.raise f).clock = s.clock ∧ (s.raise f).draws = s.draws ∧
    (s.raise f).pending = s.pending ∧ (s.raise f).mgc = { s.mgc with flags := s.mgc.flags ||| f.bit } :=
  ⟨rfl, rfl, rfl, rfl, rfl, rfl, rfl, rfl, rfl, rfl, rfl, rfl, rfl, rfl, rfl, rfl, rfl, rfl⟩

/-- The clock alone moves on. -/
@[simp] theorem State.advance_frame (s : State) (t : Nat) :
    (s.advance t).fcp = s.fcp ∧ (s.advance t).mcp = s.mcp ∧ (s.advance t).rrs = s.rrs ∧ (s.advance t).cph = s.cph ∧
    (s.advance t).cxm = s.cxm ∧ (s.advance t).stg = s.stg ∧ (s.advance t).flow = s.flow ∧
    (s.advance t).mar = s.mar ∧ (s.advance t).aut = s.aut ∧ (s.advance t).bsc = s.bsc ∧ (s.advance t).rsp = s.rsp ∧
    (s.advance t).wsq = s.wsq ∧ (s.advance t).rtb = s.rtb ∧ (s.advance t).mgc = s.mgc ∧ (s.advance t).cfs = s.cfs ∧
    (s.advance t).draws = s.draws ∧ (s.advance t).pending = s.pending ∧ (s.advance t).clock = max s.clock t :=
  ⟨rfl, rfl, rfl, rfl, rfl, rfl, rfl, rfl, rfl, rfl, rfl, rfl, rfl, rfl, rfl, rfl, rfl, rfl⟩

/-- The end of a front frame changes the front framer only (R163). -/
@[simp] theorem State.framed_front (s : State) (f : Framer) :
    (s.framed .front f).mcp = s.mcp ∧ (s.framed .front f).rrs = s.rrs ∧ (s.framed .front f).cph = s.cph ∧
    (s.framed .front f).cxm = s.cxm ∧ (s.framed .front f).stg = s.stg ∧ (s.framed .front f).flow = s.flow ∧
    (s.framed .front f).mar = s.mar ∧ (s.framed .front f).aut = s.aut ∧ (s.framed .front f).bsc = s.bsc ∧
    (s.framed .front f).rsp = s.rsp ∧ (s.framed .front f).wsq = s.wsq ∧ (s.framed .front f).rtb = s.rtb ∧
    (s.framed .front f).mgc = s.mgc ∧ (s.framed .front f).cfs = s.cfs ∧ (s.framed .front f).clock = s.clock ∧
    (s.framed .front f).draws = s.draws ∧ (s.framed .front f).pending = s.pending ∧
    (s.framed .front f).fcp = { s.fcp with framer := f } :=
  ⟨rfl, rfl, rfl, rfl, rfl, rfl, rfl, rfl, rfl, rfl, rfl, rfl, rfl, rfl, rfl, rfl, rfl, rfl⟩

/-- The end of a media frame changes the media framer only (R163). -/
@[simp] theorem State.framed_media (s : State) (f : Framer) :
    (s.framed .media f).fcp = s.fcp ∧ (s.framed .media f).rrs = s.rrs ∧ (s.framed .media f).cph = s.cph ∧
    (s.framed .media f).cxm = s.cxm ∧ (s.framed .media f).stg = s.stg ∧ (s.framed .media f).flow = s.flow ∧
    (s.framed .media f).mar = s.mar ∧ (s.framed .media f).aut = s.aut ∧ (s.framed .media f).bsc = s.bsc ∧
    (s.framed .media f).rsp = s.rsp ∧ (s.framed .media f).wsq = s.wsq ∧ (s.framed .media f).rtb = s.rtb ∧
    (s.framed .media f).mgc = s.mgc ∧ (s.framed .media f).cfs = s.cfs ∧ (s.framed .media f).clock = s.clock ∧
    (s.framed .media f).draws = s.draws ∧ (s.framed .media f).pending = s.pending ∧
    (s.framed .media f).mcp = { s.mcp with framer := f } :=
  ⟨rfl, rfl, rfl, rfl, rfl, rfl, rfl, rfl, rfl, rfl, rfl, rfl, rfl, rfl, rfl, rfl, rfl, rfl⟩

/-- A frame joins the end of the front send order (R165). -/
@[simp] theorem State.sendFront_frame (s : State) (f : Frame) :
    (s.sendFront f).mcp = s.mcp ∧ (s.sendFront f).rrs = s.rrs ∧ (s.sendFront f).cph = s.cph ∧
    (s.sendFront f).cxm = s.cxm ∧ (s.sendFront f).stg = s.stg ∧ (s.sendFront f).flow = s.flow ∧
    (s.sendFront f).mar = s.mar ∧ (s.sendFront f).aut = s.aut ∧ (s.sendFront f).bsc = s.bsc ∧
    (s.sendFront f).rsp = s.rsp ∧ (s.sendFront f).wsq = s.wsq ∧ (s.sendFront f).rtb = s.rtb ∧
    (s.sendFront f).mgc = s.mgc ∧ (s.sendFront f).cfs = s.cfs ∧ (s.sendFront f).clock = s.clock ∧
    (s.sendFront f).draws = s.draws ∧ (s.sendFront f).pending = s.pending ∧
    (s.sendFront f).fcp = { s.fcp with sendOrder := s.fcp.sendOrder ++ [⟨f, none⟩] } :=
  ⟨rfl, rfl, rfl, rfl, rfl, rfl, rfl, rfl, rfl, rfl, rfl, rfl, rfl, rfl, rfl, rfl, rfl, rfl⟩

/-- A frame joins the end of the media send order (R165). -/
@[simp] theorem State.sendMedia_frame (s : State) (f : Frame) :
    (s.sendMedia f).fcp = s.fcp ∧ (s.sendMedia f).rrs = s.rrs ∧ (s.sendMedia f).cph = s.cph ∧
    (s.sendMedia f).cxm = s.cxm ∧ (s.sendMedia f).stg = s.stg ∧ (s.sendMedia f).flow = s.flow ∧
    (s.sendMedia f).mar = s.mar ∧ (s.sendMedia f).aut = s.aut ∧ (s.sendMedia f).bsc = s.bsc ∧
    (s.sendMedia f).rsp = s.rsp ∧ (s.sendMedia f).wsq = s.wsq ∧ (s.sendMedia f).rtb = s.rtb ∧
    (s.sendMedia f).mgc = s.mgc ∧ (s.sendMedia f).cfs = s.cfs ∧ (s.sendMedia f).clock = s.clock ∧
    (s.sendMedia f).draws = s.draws ∧ (s.sendMedia f).pending = s.pending ∧
    (s.sendMedia f).mcp = { s.mcp with sendOrder := s.mcp.sendOrder ++ [f] } :=
  ⟨rfl, rfl, rfl, rfl, rfl, rfl, rfl, rfl, rfl, rfl, rfl, rfl, rfl, rfl, rfl, rfl, rfl, rfl⟩

/-- A front DATA frame carries the tag's outbound bit (R167). -/
@[simp] theorem State.sendFrontData_frame (s : State) (t : Fin 32) (x : Sector) (r : Option (BitVec 13)) :
    (s.sendFrontData t x r).mcp = s.mcp ∧ (s.sendFrontData t x r).rrs = s.rrs ∧
    (s.sendFrontData t x r).cph = s.cph ∧ (s.sendFrontData t x r).cxm = s.cxm ∧
    (s.sendFrontData t x r).stg = s.stg ∧ (s.sendFrontData t x r).flow = s.flow ∧
    (s.sendFrontData t x r).mar = s.mar ∧ (s.sendFrontData t x r).aut = s.aut ∧
    (s.sendFrontData t x r).bsc = s.bsc ∧ (s.sendFrontData t x r).rsp = s.rsp ∧
    (s.sendFrontData t x r).wsq = s.wsq ∧ (s.sendFrontData t x r).rtb = s.rtb ∧
    (s.sendFrontData t x r).mgc = s.mgc ∧ (s.sendFrontData t x r).cfs = s.cfs ∧
    (s.sendFrontData t x r).clock = s.clock ∧ (s.sendFrontData t x r).draws = s.draws ∧
    (s.sendFrontData t x r).pending = s.pending ∧
    (s.sendFrontData t x r).fcp.sendOrder = s.fcp.sendOrder ++ [⟨.data (frontByte t) s.fcp.seq[t].outbound x, r⟩] :=
  ⟨rfl, rfl, rfl, rfl, rfl, rfl, rfl, rfl, rfl, rfl, rfl, rfl, rfl, rfl, rfl, rfl, rfl, rfl⟩

/-- One lane changes. -/
@[simp] theorem State.modLane_frame (s : State) (m : Fin 130) (f : Lane → Lane) :
    (s.modLane m f).fcp = s.fcp ∧ (s.modLane m f).rrs = s.rrs ∧ (s.modLane m f).cph = s.cph ∧
    (s.modLane m f).cxm = s.cxm ∧ (s.modLane m f).stg = s.stg ∧ (s.modLane m f).flow = s.flow ∧
    (s.modLane m f).mar = s.mar ∧ (s.modLane m f).aut = s.aut ∧ (s.modLane m f).bsc = s.bsc ∧
    (s.modLane m f).rsp = s.rsp ∧ (s.modLane m f).wsq = s.wsq ∧ (s.modLane m f).rtb = s.rtb ∧
    (s.modLane m f).mgc = s.mgc ∧ (s.modLane m f).cfs = s.cfs ∧ (s.modLane m f).clock = s.clock ∧
    (s.modLane m f).draws = s.draws ∧ (s.modLane m f).pending = s.pending ∧
    (s.modLane m f).mcp = { s.mcp with lanes := upd s.mcp.lanes m f } :=
  ⟨rfl, rfl, rfl, rfl, rfl, rfl, rfl, rfl, rfl, rfl, rfl, rfl, rfl, rfl, rfl, rfl, rfl, rfl⟩

/-- The media timer of an issued tag starts again; that of another tag does not run (R56). -/
@[simp] theorem State.restartTimer_frame (s : State) (m : Fin 130) :
    (s.restartTimer m).fcp = s.fcp ∧ (s.restartTimer m).rrs = s.rrs ∧ (s.restartTimer m).cph = s.cph ∧
    (s.restartTimer m).cxm = s.cxm ∧ (s.restartTimer m).stg = s.stg ∧ (s.restartTimer m).flow = s.flow ∧
    (s.restartTimer m).mar = s.mar ∧ (s.restartTimer m).aut = s.aut ∧ (s.restartTimer m).bsc = s.bsc ∧
    (s.restartTimer m).rsp = s.rsp ∧ (s.restartTimer m).wsq = s.wsq ∧ (s.restartTimer m).rtb = s.rtb ∧
    (s.restartTimer m).mgc = s.mgc ∧ (s.restartTimer m).cfs = s.cfs ∧ (s.restartTimer m).clock = s.clock ∧
    (s.restartTimer m).draws = s.draws ∧ (s.restartTimer m).pending = s.pending ∧
    (s.restartTimer m).mcp =
      if s.mar.issued.contains m then
        { s.mcp with lanes := upd s.mcp.lanes m fun l => { l with timer := some (s.clock + ms 8000) } }
      else s.mcp := by
  unfold State.restartTimer
  split <;> exact ⟨rfl, rfl, rfl, rfl, rfl, rfl, rfl, rfl, rfl, rfl, rfl, rfl, rfl, rfl, rfl, rfl, rfl, rfl⟩

/-- A settled tag leaves the issued list; its credit, reserved places and timer end (R40, R72, R77). -/
@[simp] theorem State.settleTag_frame (s : State) (m : Fin 130) :
    (s.settleTag m).fcp = s.fcp ∧ (s.settleTag m).rrs = s.rrs ∧ (s.settleTag m).cph = s.cph ∧
    (s.settleTag m).cxm = s.cxm ∧ (s.settleTag m).stg = s.stg ∧ (s.settleTag m).flow = s.flow ∧
    (s.settleTag m).aut = s.aut ∧ (s.settleTag m).bsc = s.bsc ∧ (s.settleTag m).rsp = s.rsp ∧
    (s.settleTag m).wsq = s.wsq ∧ (s.settleTag m).rtb = s.rtb ∧ (s.settleTag m).mgc = s.mgc ∧
    (s.settleTag m).cfs = s.cfs ∧ (s.settleTag m).clock = s.clock ∧ (s.settleTag m).draws = s.draws ∧
    (s.settleTag m).pending = s.pending ∧ (s.settleTag m).mar = { s.mar with issued := s.mar.issued.erase m } ∧
    (s.settleTag m).mcp =
      { s.mcp with lanes := upd s.mcp.lanes m fun l => { l with credit := 0, reserved := 0, timer := none } } :=
  ⟨rfl, rfl, rfl, rfl, rfl, rfl, rfl, rfl, rfl, rfl, rfl, rfl, rfl, rfl, rfl, rfl, rfl, rfl⟩

/-- One key slot changes. -/
@[simp] theorem State.modSlot_frame (s : State) (i : Fin 18) (f : Slot → Slot) :
    (s.modSlot i f).fcp = s.fcp ∧ (s.modSlot i f).mcp = s.mcp ∧ (s.modSlot i f).rrs = s.rrs ∧
    (s.modSlot i f).cxm = s.cxm ∧ (s.modSlot i f).stg = s.stg ∧ (s.modSlot i f).flow = s.flow ∧
    (s.modSlot i f).mar = s.mar ∧ (s.modSlot i f).aut = s.aut ∧ (s.modSlot i f).bsc = s.bsc ∧
    (s.modSlot i f).rsp = s.rsp ∧ (s.modSlot i f).wsq = s.wsq ∧ (s.modSlot i f).rtb = s.rtb ∧
    (s.modSlot i f).mgc = s.mgc ∧ (s.modSlot i f).cfs = s.cfs ∧ (s.modSlot i f).clock = s.clock ∧
    (s.modSlot i f).draws = s.draws ∧ (s.modSlot i f).pending = s.pending ∧
    (s.modSlot i f).cph = { s.cph with slots := upd s.cph.slots i f } :=
  ⟨rfl, rfl, rfl, rfl, rfl, rfl, rfl, rfl, rfl, rfl, rfl, rfl, rfl, rfl, rfl, rfl, rfl, rfl⟩

/-- One use more on a slot (R25). -/
@[simp] theorem State.takeUse_frame (s : State) (i : Fin 18) :
    (s.takeUse i).fcp = s.fcp ∧ (s.takeUse i).mcp = s.mcp ∧ (s.takeUse i).rrs = s.rrs ∧ (s.takeUse i).cxm = s.cxm ∧
    (s.takeUse i).stg = s.stg ∧ (s.takeUse i).flow = s.flow ∧ (s.takeUse i).mar = s.mar ∧
    (s.takeUse i).aut = s.aut ∧ (s.takeUse i).bsc = s.bsc ∧ (s.takeUse i).rsp = s.rsp ∧ (s.takeUse i).wsq = s.wsq ∧
    (s.takeUse i).rtb = s.rtb ∧ (s.takeUse i).mgc = s.mgc ∧ (s.takeUse i).cfs = s.cfs ∧
    (s.takeUse i).clock = s.clock ∧ (s.takeUse i).draws = s.draws ∧ (s.takeUse i).pending = s.pending ∧
    (s.takeUse i).cph = { s.cph with slots := upd s.cph.slots i fun x => { x with uses := x.uses + 1 } } :=
  ⟨rfl, rfl, rfl, rfl, rfl, rfl, rfl, rfl, rfl, rfl, rfl, rfl, rfl, rfl, rfl, rfl, rfl, rfl⟩

/-- One context record changes. -/
@[simp] theorem State.setCtx_frame (s : State) (t : Fin 32) (c : Option Context) :
    (s.setCtx t c).fcp = s.fcp ∧ (s.setCtx t c).mcp = s.mcp ∧ (s.setCtx t c).rrs = s.rrs ∧
    (s.setCtx t c).cph = s.cph ∧ (s.setCtx t c).stg = s.stg ∧ (s.setCtx t c).flow = s.flow ∧
    (s.setCtx t c).mar = s.mar ∧ (s.setCtx t c).aut = s.aut ∧ (s.setCtx t c).bsc = s.bsc ∧
    (s.setCtx t c).rsp = s.rsp ∧ (s.setCtx t c).wsq = s.wsq ∧ (s.setCtx t c).rtb = s.rtb ∧
    (s.setCtx t c).mgc = s.mgc ∧ (s.setCtx t c).cfs = s.cfs ∧ (s.setCtx t c).clock = s.clock ∧
    (s.setCtx t c).draws = s.draws ∧ (s.setCtx t c).pending = s.pending ∧
    (s.setCtx t c).cxm = ⟨s.cxm.contexts.set t c⟩ :=
  ⟨rfl, rfl, rfl, rfl, rfl, rfl, rfl, rfl, rfl, rfl, rfl, rfl, rfl, rfl, rfl, rfl, rfl, rfl⟩

/-- Only the Context Table changes. -/
@[simp] theorem State.modCtx_frame (s : State) (t : Fin 32) (f : Context → Context) :
    (s.modCtx t f).fcp = s.fcp ∧ (s.modCtx t f).mcp = s.mcp ∧ (s.modCtx t f).rrs = s.rrs ∧
    (s.modCtx t f).cph = s.cph ∧ (s.modCtx t f).stg = s.stg ∧ (s.modCtx t f).flow = s.flow ∧
    (s.modCtx t f).mar = s.mar ∧ (s.modCtx t f).aut = s.aut ∧ (s.modCtx t f).bsc = s.bsc ∧
    (s.modCtx t f).rsp = s.rsp ∧ (s.modCtx t f).wsq = s.wsq ∧ (s.modCtx t f).rtb = s.rtb ∧
    (s.modCtx t f).mgc = s.mgc ∧ (s.modCtx t f).cfs = s.cfs ∧ (s.modCtx t f).clock = s.clock ∧
    (s.modCtx t f).draws = s.draws ∧ (s.modCtx t f).pending = s.pending :=
  ⟨rfl, rfl, rfl, rfl, rfl, rfl, rfl, rfl, rfl, rfl, rfl, rfl, rfl, rfl, rfl, rfl, rfl⟩

/-- Only the Context Table changes. -/
@[simp] theorem State.modSeg_frame (s : State) (t : Fin 32) (i : Nat) (f : Segment → Segment) :
    (s.modSeg t i f).fcp = s.fcp ∧ (s.modSeg t i f).mcp = s.mcp ∧ (s.modSeg t i f).rrs = s.rrs ∧
    (s.modSeg t i f).cph = s.cph ∧ (s.modSeg t i f).stg = s.stg ∧ (s.modSeg t i f).flow = s.flow ∧
    (s.modSeg t i f).mar = s.mar ∧ (s.modSeg t i f).aut = s.aut ∧ (s.modSeg t i f).bsc = s.bsc ∧
    (s.modSeg t i f).rsp = s.rsp ∧ (s.modSeg t i f).wsq = s.wsq ∧ (s.modSeg t i f).rtb = s.rtb ∧
    (s.modSeg t i f).mgc = s.mgc ∧ (s.modSeg t i f).cfs = s.cfs ∧ (s.modSeg t i f).clock = s.clock ∧
    (s.modSeg t i f).draws = s.draws ∧ (s.modSeg t i f).pending = s.pending :=
  ⟨rfl, rfl, rfl, rfl, rfl, rfl, rfl, rfl, rfl, rfl, rfl, rfl, rfl, rfl, rfl, rfl, rfl⟩

/-- Held sectors of some tags go (R43). -/
@[simp] theorem State.dropHeld_frame (s : State) (p : Fin 130 → Bool) :
    (s.dropHeld p).fcp = s.fcp ∧ (s.dropHeld p).mcp = s.mcp ∧ (s.dropHeld p).rrs = s.rrs ∧
    (s.dropHeld p).cxm = s.cxm ∧ (s.dropHeld p).stg = s.stg ∧ (s.dropHeld p).flow = s.flow ∧
    (s.dropHeld p).mar = s.mar ∧ (s.dropHeld p).aut = s.aut ∧ (s.dropHeld p).bsc = s.bsc ∧
    (s.dropHeld p).rsp = s.rsp ∧ (s.dropHeld p).wsq = s.wsq ∧ (s.dropHeld p).rtb = s.rtb ∧
    (s.dropHeld p).mgc = s.mgc ∧ (s.dropHeld p).cfs = s.cfs ∧ (s.dropHeld p).clock = s.clock ∧
    (s.dropHeld p).draws = s.draws ∧ (s.dropHeld p).pending = s.pending ∧
    (s.dropHeld p).cph = { s.cph with held := s.cph.held.filter fun x => !p x.tag } :=
  ⟨rfl, rfl, rfl, rfl, rfl, rfl, rfl, rfl, rfl, rfl, rfl, rfl, rfl, rfl, rfl, rfl, rfl, rfl⟩

/-- A discarded reply sets REPLY_DISCARDED and the flags it took (R182). -/
@[simp] theorem State.discardReply_frame (s : State) (f : BitVec 13) :
    (s.discardReply f).fcp = s.fcp ∧ (s.discardReply f).mcp = s.mcp ∧ (s.discardReply f).rrs = s.rrs ∧
    (s.discardReply f).cph = s.cph ∧ (s.discardReply f).cxm = s.cxm ∧ (s.discardReply f).stg = s.stg ∧
    (s.discardReply f).flow = s.flow ∧ (s.discardReply f).mar = s.mar ∧ (s.discardReply f).aut = s.aut ∧
    (s.discardReply f).bsc = s.bsc ∧ (s.discardReply f).rsp = s.rsp ∧ (s.discardReply f).wsq = s.wsq ∧
    (s.discardReply f).rtb = s.rtb ∧ (s.discardReply f).cfs = s.cfs ∧ (s.discardReply f).clock = s.clock ∧
    (s.discardReply f).draws = s.draws ∧ (s.discardReply f).pending = s.pending ∧
    (s.discardReply f).mgc = { s.mgc with flags := s.mgc.flags ||| f ||| Flag.replyDiscarded.bit } :=
  ⟨rfl, rfl, rfl, rfl, rfl, rfl, rfl, rfl, rfl, rfl, rfl, rfl, rfl, rfl, rfl, rfl, rfl, rfl⟩

/-- Only the Envelope Table changes. -/
@[simp] theorem State.dropEnvelopes_frame (s : State) (p : Envelope → Bool) :
    (s.dropEnvelopes p).fcp = s.fcp ∧ (s.dropEnvelopes p).mcp = s.mcp ∧ (s.dropEnvelopes p).rrs = s.rrs ∧
    (s.dropEnvelopes p).cph = s.cph ∧ (s.dropEnvelopes p).cxm = s.cxm ∧ (s.dropEnvelopes p).stg = s.stg ∧
    (s.dropEnvelopes p).flow = s.flow ∧ (s.dropEnvelopes p).mar = s.mar ∧ (s.dropEnvelopes p).bsc = s.bsc ∧
    (s.dropEnvelopes p).rsp = s.rsp ∧ (s.dropEnvelopes p).wsq = s.wsq ∧ (s.dropEnvelopes p).rtb = s.rtb ∧
    (s.dropEnvelopes p).mgc = s.mgc ∧ (s.dropEnvelopes p).cfs = s.cfs ∧ (s.dropEnvelopes p).clock = s.clock ∧
    (s.dropEnvelopes p).draws = s.draws ∧ (s.dropEnvelopes p).pending = s.pending :=
  ⟨rfl, rfl, rfl, rfl, rfl, rfl, rfl, rfl, rfl, rfl, rfl, rfl, rfl, rfl, rfl, rfl, rfl⟩

/-- A fresh key is drawn (R23). -/
@[simp] theorem State.draw_frame (s : State) :
    (s.draw.1).fcp = s.fcp ∧ (s.draw.1).mcp = s.mcp ∧ (s.draw.1).rrs = s.rrs ∧ (s.draw.1).cph = s.cph ∧
    (s.draw.1).cxm = s.cxm ∧ (s.draw.1).stg = s.stg ∧ (s.draw.1).flow = s.flow ∧ (s.draw.1).mar = s.mar ∧
    (s.draw.1).aut = s.aut ∧ (s.draw.1).bsc = s.bsc ∧ (s.draw.1).rsp = s.rsp ∧ (s.draw.1).wsq = s.wsq ∧
    (s.draw.1).rtb = s.rtb ∧ (s.draw.1).mgc = s.mgc ∧ (s.draw.1).cfs = s.cfs ∧ (s.draw.1).clock = s.clock ∧
    (s.draw.1).pending = s.pending ∧ s.draw.1.draws = s.draws + 1 ∧ s.draw.2 = Config.freshKey s.draws :=
  ⟨rfl, rfl, rfl, rfl, rfl, rfl, rfl, rfl, rfl, rfl, rfl, rfl, rfl, rfl, rfl, rfl, rfl, rfl, rfl⟩

/-- One request being worked changes. -/
@[simp] theorem State.modWork_frame (s : State) (id : Nat) (f : Work → Work) :
    (s.modWork id f).fcp = s.fcp ∧ (s.modWork id f).mcp = s.mcp ∧ (s.modWork id f).rrs = s.rrs ∧
    (s.modWork id f).cph = s.cph ∧ (s.modWork id f).cxm = s.cxm ∧ (s.modWork id f).stg = s.stg ∧
    (s.modWork id f).flow = s.flow ∧ (s.modWork id f).mar = s.mar ∧ (s.modWork id f).aut = s.aut ∧
    (s.modWork id f).bsc = s.bsc ∧ (s.modWork id f).rsp = s.rsp ∧ (s.modWork id f).wsq = s.wsq ∧
    (s.modWork id f).rtb = s.rtb ∧ (s.modWork id f).cfs = s.cfs ∧ (s.modWork id f).clock = s.clock ∧
    (s.modWork id f).draws = s.draws ∧ (s.modWork id f).pending = s.pending ∧
    (s.modWork id f).mgc = { s.mgc with works := s.mgc.works.map fun w => if w.id = id then f w else w } :=
  ⟨rfl, rfl, rfl, rfl, rfl, rfl, rfl, rfl, rfl, rfl, rfl, rfl, rfl, rfl, rfl, rfl, rfl, rfl⟩

/-- A formed reply changes its request only (R179). -/
@[simp] theorem State.finish_frame (s : State) (id : Nat) (r : Reply) :
    (s.finish id r).fcp = s.fcp ∧ (s.finish id r).mcp = s.mcp ∧ (s.finish id r).rrs = s.rrs ∧
    (s.finish id r).cph = s.cph ∧ (s.finish id r).cxm = s.cxm ∧ (s.finish id r).stg = s.stg ∧
    (s.finish id r).flow = s.flow ∧ (s.finish id r).mar = s.mar ∧ (s.finish id r).aut = s.aut ∧
    (s.finish id r).bsc = s.bsc ∧ (s.finish id r).rsp = s.rsp ∧ (s.finish id r).wsq = s.wsq ∧
    (s.finish id r).rtb = s.rtb ∧ (s.finish id r).cfs = s.cfs ∧ (s.finish id r).clock = s.clock ∧
    (s.finish id r).draws = s.draws ∧ (s.finish id r).pending = s.pending ∧
    (s.finish id r).mgc =
      { s.mgc with works := s.mgc.works.map fun w => if w.id = id then { w with stage := .finishing r, cred := none } else w } :=
  ⟨rfl, rfl, rfl, rfl, rfl, rfl, rfl, rfl, rfl, rfl, rfl, rfl, rfl, rfl, rfl, rfl, rfl, rfl⟩

/-- A POWER_STATUS frame is sent (R173). -/
@[simp] theorem State.powerStatus_frame (s : State) (v : Byte) :
    (s.powerStatus v).mcp = s.mcp ∧ (s.powerStatus v).rrs = s.rrs ∧ (s.powerStatus v).cph = s.cph ∧
    (s.powerStatus v).cxm = s.cxm ∧ (s.powerStatus v).stg = s.stg ∧ (s.powerStatus v).flow = s.flow ∧
    (s.powerStatus v).mar = s.mar ∧ (s.powerStatus v).aut = s.aut ∧ (s.powerStatus v).bsc = s.bsc ∧
    (s.powerStatus v).rsp = s.rsp ∧ (s.powerStatus v).wsq = s.wsq ∧ (s.powerStatus v).rtb = s.rtb ∧
    (s.powerStatus v).mgc = s.mgc ∧ (s.powerStatus v).cfs = s.cfs ∧ (s.powerStatus v).clock = s.clock ∧
    (s.powerStatus v).draws = s.draws ∧ (s.powerStatus v).pending = s.pending ∧
    (s.powerStatus v).fcp = { s.fcp with sendOrder := s.fcp.sendOrder ++ [⟨.powerStatus v, none⟩] } :=
  ⟨rfl, rfl, rfl, rfl, rfl, rfl, rfl, rfl, rfl, rfl, rfl, rfl, rfl, rfl, rfl, rfl, rfl, rfl⟩

/-- A conversion starts (R106). -/
@[simp] theorem State.startConversion_frame (s : State) (c : Conversion) :
    (s.startConversion c).fcp = s.fcp ∧ (s.startConversion c).mcp = s.mcp ∧ (s.startConversion c).rrs = s.rrs ∧
    (s.startConversion c).cph = s.cph ∧ (s.startConversion c).cxm = s.cxm ∧ (s.startConversion c).stg = s.stg ∧
    (s.startConversion c).flow = s.flow ∧ (s.startConversion c).mar = s.mar ∧ (s.startConversion c).aut = s.aut ∧
    (s.startConversion c).rsp = s.rsp ∧ (s.startConversion c).wsq = s.wsq ∧ (s.startConversion c).rtb = s.rtb ∧
    (s.startConversion c).mgc = s.mgc ∧ (s.startConversion c).cfs = s.cfs ∧ (s.startConversion c).clock = s.clock ∧
    (s.startConversion c).draws = s.draws ∧ (s.startConversion c).pending = s.pending ∧
    (s.startConversion c).bsc = { s.bsc with phase := .zeroing, phaseStart := s.clock, running := some c } :=
  ⟨rfl, rfl, rfl, rfl, rfl, rfl, rfl, rfl, rfl, rfl, rfl, rfl, rfl, rfl, rfl, rfl, rfl, rfl⟩

/-- A sector enters the staging buffer (R66). -/
@[simp] theorem State.stage_frame (s : State) (x : Staged) :
    (s.stage x).fcp = s.fcp ∧ (s.stage x).mcp = s.mcp ∧ (s.stage x).rrs = s.rrs ∧ (s.stage x).cph = s.cph ∧
    (s.stage x).cxm = s.cxm ∧ (s.stage x).flow = s.flow ∧ (s.stage x).mar = s.mar ∧ (s.stage x).aut = s.aut ∧
    (s.stage x).bsc = s.bsc ∧ (s.stage x).rsp = s.rsp ∧ (s.stage x).wsq = s.wsq ∧ (s.stage x).rtb = s.rtb ∧
    (s.stage x).mgc = s.mgc ∧ (s.stage x).cfs = s.cfs ∧ (s.stage x).clock = s.clock ∧ (s.stage x).draws = s.draws ∧
    (s.stage x).pending = s.pending ∧ (s.stage x).stg.staged = s.stg.staged ++ [x] :=
  ⟨rfl, rfl, rfl, rfl, rfl, rfl, rfl, rfl, rfl, rfl, rfl, rfl, rfl, rfl, rfl, rfl, rfl, rfl⟩

/-- A sector takes its place in the return buffer (R40). -/
@[simp] theorem State.hold_frame (s : State) (h : Held) :
    (s.hold h).fcp = s.fcp ∧ (s.hold h).mcp = s.mcp ∧ (s.hold h).rrs = s.rrs ∧ (s.hold h).cxm = s.cxm ∧
    (s.hold h).stg = s.stg ∧ (s.hold h).flow = s.flow ∧ (s.hold h).mar = s.mar ∧ (s.hold h).aut = s.aut ∧
    (s.hold h).bsc = s.bsc ∧ (s.hold h).rsp = s.rsp ∧ (s.hold h).wsq = s.wsq ∧ (s.hold h).rtb = s.rtb ∧
    (s.hold h).mgc = s.mgc ∧ (s.hold h).cfs = s.cfs ∧ (s.hold h).clock = s.clock ∧ (s.hold h).draws = s.draws ∧
    (s.hold h).pending = s.pending ∧ (s.hold h).cph = { s.cph with held := s.cph.held ++ [h] } :=
  ⟨rfl, rfl, rfl, rfl, rfl, rfl, rfl, rfl, rfl, rfl, rfl, rfl, rfl, rfl, rfl, rfl, rfl, rfl⟩

/-- A sector leaves the return buffer (R40). -/
@[simp] theorem State.unhold_frame (s : State) (h : Held) :
    (s.unhold h).fcp = s.fcp ∧ (s.unhold h).mcp = s.mcp ∧ (s.unhold h).rrs = s.rrs ∧ (s.unhold h).cxm = s.cxm ∧
    (s.unhold h).stg = s.stg ∧ (s.unhold h).flow = s.flow ∧ (s.unhold h).mar = s.mar ∧ (s.unhold h).aut = s.aut ∧
    (s.unhold h).bsc = s.bsc ∧ (s.unhold h).rsp = s.rsp ∧ (s.unhold h).wsq = s.wsq ∧ (s.unhold h).rtb = s.rtb ∧
    (s.unhold h).mgc = s.mgc ∧ (s.unhold h).cfs = s.cfs ∧ (s.unhold h).clock = s.clock ∧
    (s.unhold h).draws = s.draws ∧ (s.unhold h).pending = s.pending ∧
    (s.unhold h).cph = { s.cph with held := s.cph.held.erase h } :=
  ⟨rfl, rfl, rfl, rfl, rfl, rfl, rfl, rfl, rfl, rfl, rfl, rfl, rfl, rfl, rfl, rfl, rfl, rfl⟩

/-- One authority record changes. -/
@[simp] theorem State.setAuthority_frame (s : State) (i : Fin 8) (a : Authority) :
    (s.setAuthority i a).fcp = s.fcp ∧ (s.setAuthority i a).mcp = s.mcp ∧ (s.setAuthority i a).rrs = s.rrs ∧
    (s.setAuthority i a).cph = s.cph ∧ (s.setAuthority i a).cxm = s.cxm ∧ (s.setAuthority i a).stg = s.stg ∧
    (s.setAuthority i a).flow = s.flow ∧ (s.setAuthority i a).mar = s.mar ∧ (s.setAuthority i a).bsc = s.bsc ∧
    (s.setAuthority i a).rsp = s.rsp ∧ (s.setAuthority i a).wsq = s.wsq ∧ (s.setAuthority i a).rtb = s.rtb ∧
    (s.setAuthority i a).mgc = s.mgc ∧ (s.setAuthority i a).cfs = s.cfs ∧ (s.setAuthority i a).clock = s.clock ∧
    (s.setAuthority i a).draws = s.draws ∧ (s.setAuthority i a).pending = s.pending ∧
    (s.setAuthority i a).aut = { s.aut with authorities := s.aut.authorities.set i a } :=
  ⟨rfl, rfl, rfl, rfl, rfl, rfl, rfl, rfl, rfl, rfl, rfl, rfl, rfl, rfl, rfl, rfl, rfl, rfl⟩

/-- One throttle is cleared (R91). -/
@[simp] theorem State.clearThrottle_frame (s : State) (i : Fin 8) :
    (s.clearThrottle i).fcp = s.fcp ∧ (s.clearThrottle i).mcp = s.mcp ∧ (s.clearThrottle i).rrs = s.rrs ∧
    (s.clearThrottle i).cph = s.cph ∧ (s.clearThrottle i).cxm = s.cxm ∧ (s.clearThrottle i).stg = s.stg ∧
    (s.clearThrottle i).flow = s.flow ∧ (s.clearThrottle i).mar = s.mar ∧ (s.clearThrottle i).bsc = s.bsc ∧
    (s.clearThrottle i).rsp = s.rsp ∧ (s.clearThrottle i).wsq = s.wsq ∧ (s.clearThrottle i).rtb = s.rtb ∧
    (s.clearThrottle i).mgc = s.mgc ∧ (s.clearThrottle i).cfs = s.cfs ∧ (s.clearThrottle i).clock = s.clock ∧
    (s.clearThrottle i).draws = s.draws ∧ (s.clearThrottle i).pending = s.pending ∧
    (s.clearThrottle i).aut = { s.aut with throttle := s.aut.throttle.set i none } :=
  ⟨rfl, rfl, rfl, rfl, rfl, rfl, rfl, rfl, rfl, rfl, rfl, rfl, rfl, rfl, rfl, rfl, rfl, rfl⟩

/-- Boot-done set, boot-image-write off (R12, R13). -/
@[simp] theorem State.setBootDone_frame (s : State) :
    (s.setBootDone).fcp = s.fcp ∧ (s.setBootDone).mcp = s.mcp ∧ (s.setBootDone).cph = s.cph ∧
    (s.setBootDone).cxm = s.cxm ∧ (s.setBootDone).stg = s.stg ∧ (s.setBootDone).flow = s.flow ∧
    (s.setBootDone).mar = s.mar ∧ (s.setBootDone).aut = s.aut ∧ (s.setBootDone).bsc = s.bsc ∧
    (s.setBootDone).rsp = s.rsp ∧ (s.setBootDone).wsq = s.wsq ∧ (s.setBootDone).rtb = s.rtb ∧
    (s.setBootDone).mgc = s.mgc ∧ (s.setBootDone).cfs = s.cfs ∧ (s.setBootDone).clock = s.clock ∧
    (s.setBootDone).draws = s.draws ∧ (s.setBootDone).pending = s.pending ∧
    s.setBootDone.rrs = { s.rrs with bootDone := true, bootImageWrite := false } :=
  ⟨rfl, rfl, rfl, rfl, rfl, rfl, rfl, rfl, rfl, rfl, rfl, rfl, rfl, rfl, rfl, rfl, rfl, rfl⟩

/-- A command ends at once with its STAT (R46). -/
@[simp] theorem State.refuse_frame (s : State) (t : Fin 32) (x : FrontStatus) :
    (s.refuse t x).mcp = s.mcp ∧ (s.refuse t x).rrs = s.rrs ∧ (s.refuse t x).cph = s.cph ∧
    (s.refuse t x).cxm = s.cxm ∧ (s.refuse t x).stg = s.stg ∧ (s.refuse t x).flow = s.flow ∧
    (s.refuse t x).mar = s.mar ∧ (s.refuse t x).aut = s.aut ∧ (s.refuse t x).bsc = s.bsc ∧
    (s.refuse t x).rsp = s.rsp ∧ (s.refuse t x).wsq = s.wsq ∧ (s.refuse t x).rtb = s.rtb ∧
    (s.refuse t x).mgc = s.mgc ∧ (s.refuse t x).cfs = s.cfs ∧ (s.refuse t x).clock = s.clock ∧
    (s.refuse t x).draws = s.draws ∧ (s.refuse t x).pending = s.pending ∧
    (s.refuse t x).fcp = { s.fcp with sendOrder := s.fcp.sendOrder ++ [⟨.stat (frontByte t) x.toByte 0, none⟩] } :=
  ⟨rfl, rfl, rfl, rfl, rfl, rfl, rfl, rfl, rfl, rfl, rfl, rfl, rfl, rfl, rfl, rfl, rfl, rfl⟩

/-- The sequence state at the start of a command (R167). -/
@[simp] theorem State.startSeq_frame (s : State) (t : Fin 32) :
    (s.startSeq t).mcp = s.mcp ∧ (s.startSeq t).rrs = s.rrs ∧ (s.startSeq t).cph = s.cph ∧
    (s.startSeq t).cxm = s.cxm ∧ (s.startSeq t).stg = s.stg ∧ (s.startSeq t).flow = s.flow ∧
    (s.startSeq t).mar = s.mar ∧ (s.startSeq t).aut = s.aut ∧ (s.startSeq t).bsc = s.bsc ∧
    (s.startSeq t).rsp = s.rsp ∧ (s.startSeq t).wsq = s.wsq ∧ (s.startSeq t).rtb = s.rtb ∧
    (s.startSeq t).mgc = s.mgc ∧ (s.startSeq t).cfs = s.cfs ∧ (s.startSeq t).clock = s.clock ∧
    (s.startSeq t).draws = s.draws ∧ (s.startSeq t).pending = s.pending ∧
    (s.startSeq t).fcp = { s.fcp with seq := s.fcp.seq.set t SeqState.start } :=
  ⟨rfl, rfl, rfl, rfl, rfl, rfl, rfl, rfl, rfl, rfl, rfl, rfl, rfl, rfl, rfl, rfl, rfl, rfl⟩

/-- A media command is issued (R80). -/
@[simp] theorem State.issue_frame (s : State) (m : Fin 130) (f : Frame) :
    (s.issue m f).fcp = s.fcp ∧ (s.issue m f).rrs = s.rrs ∧ (s.issue m f).cph = s.cph ∧ (s.issue m f).cxm = s.cxm ∧
    (s.issue m f).stg = s.stg ∧ (s.issue m f).flow = s.flow ∧ (s.issue m f).aut = s.aut ∧
    (s.issue m f).bsc = s.bsc ∧ (s.issue m f).rsp = s.rsp ∧ (s.issue m f).wsq = s.wsq ∧ (s.issue m f).rtb = s.rtb ∧
    (s.issue m f).mgc = s.mgc ∧ (s.issue m f).cfs = s.cfs ∧ (s.issue m f).clock = s.clock ∧
    (s.issue m f).draws = s.draws ∧ (s.issue m f).pending = s.pending ∧
    (s.issue m f).mar = { s.mar with issued := s.mar.issued ++ [m] } ∧
    (s.issue m f).mcp.sendOrder = s.mcp.sendOrder ++ [f] :=
  ⟨rfl, rfl, rfl, rfl, rfl, rfl, rfl, rfl, rfl, rfl, rfl, rfl, rfl, rfl, rfl, rfl, rfl, rfl⟩

/-- A media DATA frame goes down (R73). -/
@[simp] theorem State.sendDown_frame (s : State) (m : Fin 130) (x : Sector) :
    (s.sendDown m x).fcp = s.fcp ∧ (s.sendDown m x).rrs = s.rrs ∧ (s.sendDown m x).cph = s.cph ∧
    (s.sendDown m x).cxm = s.cxm ∧ (s.sendDown m x).stg = s.stg ∧ (s.sendDown m x).flow = s.flow ∧
    (s.sendDown m x).mar = s.mar ∧ (s.sendDown m x).aut = s.aut ∧ (s.sendDown m x).bsc = s.bsc ∧
    (s.sendDown m x).rsp = s.rsp ∧ (s.sendDown m x).wsq = s.wsq ∧ (s.sendDown m x).rtb = s.rtb ∧
    (s.sendDown m x).mgc = s.mgc ∧ (s.sendDown m x).cfs = s.cfs ∧ (s.sendDown m x).clock = s.clock ∧
    (s.sendDown m x).draws = s.draws ∧ (s.sendDown m x).pending = s.pending ∧
    (s.sendDown m x).mcp.sendOrder = s.mcp.sendOrder ++ [.data (mediaByte m) s.mcp.lanes[m].seq.outbound x] :=
  ⟨rfl, rfl, rfl, rfl, rfl, rfl, rfl, rfl, rfl, rfl, rfl, rfl, rfl, rfl, rfl, rfl, rfl, rfl⟩

/-- A read grant goes down (R41). -/
@[simp] theorem State.grantRead_frame (s : State) (m : Fin 130) (n : Nat) :
    (s.grantRead m n).fcp = s.fcp ∧ (s.grantRead m n).rrs = s.rrs ∧ (s.grantRead m n).cph = s.cph ∧
    (s.grantRead m n).cxm = s.cxm ∧ (s.grantRead m n).stg = s.stg ∧ (s.grantRead m n).flow = s.flow ∧
    (s.grantRead m n).mar = s.mar ∧ (s.grantRead m n).aut = s.aut ∧ (s.grantRead m n).bsc = s.bsc ∧
    (s.grantRead m n).rsp = s.rsp ∧ (s.grantRead m n).wsq = s.wsq ∧ (s.grantRead m n).rtb = s.rtb ∧
    (s.grantRead m n).mgc = s.mgc ∧ (s.grantRead m n).cfs = s.cfs ∧ (s.grantRead m n).clock = s.clock ∧
    (s.grantRead m n).draws = s.draws ∧ (s.grantRead m n).pending = s.pending ∧
    (s.grantRead m n).mcp.sendOrder = s.mcp.sendOrder ++ [.grant (mediaByte m) (BitVec.ofNat 16 n)] :=
  ⟨rfl, rfl, rfl, rfl, rfl, rfl, rfl, rfl, rfl, rfl, rfl, rfl, rfl, rfl, rfl, rfl, rfl, rfl⟩

/-- Only the Context Table changes. -/
@[simp] theorem State.markReleased_frame (s : State) (i : Fin 18) :
    (s.markReleased i).fcp = s.fcp ∧ (s.markReleased i).mcp = s.mcp ∧ (s.markReleased i).rrs = s.rrs ∧
    (s.markReleased i).cph = s.cph ∧ (s.markReleased i).stg = s.stg ∧ (s.markReleased i).flow = s.flow ∧
    (s.markReleased i).mar = s.mar ∧ (s.markReleased i).aut = s.aut ∧ (s.markReleased i).bsc = s.bsc ∧
    (s.markReleased i).rsp = s.rsp ∧ (s.markReleased i).wsq = s.wsq ∧ (s.markReleased i).rtb = s.rtb ∧
    (s.markReleased i).mgc = s.mgc ∧ (s.markReleased i).cfs = s.cfs ∧ (s.markReleased i).clock = s.clock ∧
    (s.markReleased i).draws = s.draws ∧ (s.markReleased i).pending = s.pending :=
  ⟨rfl, rfl, rfl, rfl, rfl, rfl, rfl, rfl, rfl, rfl, rfl, rfl, rfl, rfl, rfl, rfl, rfl⟩

/-- Only the throttles change (R92). -/
@[simp] theorem State.startThrottles_frame (s : State) :
    (s.startThrottles).fcp = s.fcp ∧ (s.startThrottles).mcp = s.mcp ∧ (s.startThrottles).rrs = s.rrs ∧
    (s.startThrottles).cph = s.cph ∧ (s.startThrottles).cxm = s.cxm ∧ (s.startThrottles).stg = s.stg ∧
    (s.startThrottles).flow = s.flow ∧ (s.startThrottles).mar = s.mar ∧ (s.startThrottles).bsc = s.bsc ∧
    (s.startThrottles).rsp = s.rsp ∧ (s.startThrottles).wsq = s.wsq ∧ (s.startThrottles).rtb = s.rtb ∧
    (s.startThrottles).mgc = s.mgc ∧ (s.startThrottles).cfs = s.cfs ∧ (s.startThrottles).clock = s.clock ∧
    (s.startThrottles).draws = s.draws ∧ (s.startThrottles).pending = s.pending :=
  ⟨rfl, rfl, rfl, rfl, rfl, rfl, rfl, rfl, rfl, rfl, rfl, rfl, rfl, rfl, rfl, rfl, rfl⟩

end Sys2Proof.Machine
end

