-- ==== Sys2Proof/Laws/Ops.lean ====
section
/-! SUPPORT. What each shared operation can change, block by block: one lemma `<operation>_only` per operation, and what
the end of every command keeps of the store and of the lanes. -/

namespace Sys2Proof.Machine

/-! ### Frames compose -/

theorem OnlyChanges.refl (bs : List Block) (s : State) : OnlyChanges bs s s := by
  intro b _; cases b <;> rfl

theorem Block.Same.trans {s t u : State} : {b : Block} → b.Same s t → b.Same t u → b.Same s u := by
  intro b; cases b <;> exact fun h k => Eq.trans k h

theorem OnlyChanges.trans {bs cs : List Block} {s t u : State} (h : OnlyChanges bs s t) (k : OnlyChanges cs t u)
    (hb : bs ⊆ cs := by decide) : OnlyChanges cs s u :=
  fun b n => (h b fun m => n (hb m)).trans (k b n)

theorem OnlyChanges.mono {bs cs : List Block} {s t : State} (h : OnlyChanges bs s t) (hb : bs ⊆ cs := by decide) :
    OnlyChanges cs s t := fun b n => h b fun m => n (hb m)

/-- Two changes one after the other, in the union of their blocks. -/
theorem OnlyChanges.then {bs cs ds : List Block} {s t u : State} (h : OnlyChanges bs s t) (k : OnlyChanges cs t u)
    (hb : bs ⊆ ds := by decide) (hc : cs ⊆ ds := by decide) : OnlyChanges ds s u := (h.mono hb).trans (k.mono hc) (List.Subset.refl _)

/-- A change followed by one in some of its blocks. -/
theorem OnlyChanges.to {bs cs : List Block} {s t u : State} (h : OnlyChanges bs s t) (k : OnlyChanges cs t u)
    (hb : cs ⊆ bs := by decide) : OnlyChanges bs s u := h.trans (k.mono hb) (List.Subset.refl _)

/-- A fold of operations that each change only some blocks changes only those. -/
theorem OnlyChanges.foldl {α : Type} {bs : List Block} {f : State → α → State} (h : ∀ s x, OnlyChanges bs s (f s x))
    (l : List α) (s : State) : OnlyChanges bs s (l.foldl f s) := by
  induction l generalizing s with
  | nil => exact OnlyChanges.refl bs s
  | cons x xs ih => exact (h s x).trans (ih _) (List.Subset.refl _)

theorem OnlyChanges.set_fcp {bs : List Block} {s u : State} (h : OnlyChanges bs s u) (v : Fcp)
    (hb : Block.fcp ∈ bs := by decide) : OnlyChanges bs s { u with fcp := v } := fun b n => by
  have h := h b n; cases b <;> first | exact h | exact absurd hb n

theorem OnlyChanges.set_mcp {bs : List Block} {s u : State} (h : OnlyChanges bs s u) (v : Mcp)
    (hb : Block.mcp ∈ bs := by decide) : OnlyChanges bs s { u with mcp := v } := fun b n => by
  have h := h b n; cases b <;> first | exact h | exact absurd hb n

theorem OnlyChanges.set_rrs {bs : List Block} {s u : State} (h : OnlyChanges bs s u) (v : Rrs)
    (hb : Block.rrs ∈ bs := by decide) : OnlyChanges bs s { u with rrs := v } := fun b n => by
  have h := h b n; cases b <;> first | exact h | exact absurd hb n

theorem OnlyChanges.set_cph {bs : List Block} {s u : State} (h : OnlyChanges bs s u) (v : Cph)
    (hb : Block.cph ∈ bs := by decide) : OnlyChanges bs s { u with cph := v } := fun b n => by
  have h := h b n; cases b <;> first | exact h | exact absurd hb n

theorem OnlyChanges.set_cxm {bs : List Block} {s u : State} (h : OnlyChanges bs s u) (v : Cxm)
    (hb : Block.cxm ∈ bs := by decide) : OnlyChanges bs s { u with cxm := v } := fun b n => by
  have h := h b n; cases b <;> first | exact h | exact absurd hb n

theorem OnlyChanges.set_stg {bs : List Block} {s u : State} (h : OnlyChanges bs s u) (v : Stg)
    (hb : Block.stg ∈ bs := by decide) : OnlyChanges bs s { u with stg := v } := fun b n => by
  have h := h b n; cases b <;> first | exact h | exact absurd hb n

theorem OnlyChanges.set_mar {bs : List Block} {s u : State} (h : OnlyChanges bs s u) (v : Mar)
    (hb : Block.mar ∈ bs := by decide) : OnlyChanges bs s { u with mar := v } := fun b n => by
  have h := h b n; cases b <;> first | exact h | exact absurd hb n

theorem OnlyChanges.set_aut {bs : List Block} {s u : State} (h : OnlyChanges bs s u) (v : Aut)
    (hb : Block.aut ∈ bs := by decide) : OnlyChanges bs s { u with aut := v } := fun b n => by
  have h := h b n; cases b <;> first | exact h | exact absurd hb n

theorem OnlyChanges.set_rsp {bs : List Block} {s u : State} (h : OnlyChanges bs s u) (v : Rsp)
    (hb : Block.rsp ∈ bs := by decide) : OnlyChanges bs s { u with rsp := v } := fun b n => by
  have h := h b n; cases b <;> first | exact h | exact absurd hb n

theorem OnlyChanges.set_wsq {bs : List Block} {s u : State} (h : OnlyChanges bs s u) (v : Wsq)
    (hb : Block.wsq ∈ bs := by decide) : OnlyChanges bs s { u with wsq := v } := fun b n => by
  have h := h b n; cases b <;> first | exact h | exact absurd hb n

theorem OnlyChanges.set_rtb {bs : List Block} {s u : State} (h : OnlyChanges bs s u) (v : Rtb)
    (hb : Block.rtb ∈ bs := by decide) : OnlyChanges bs s { u with rtb := v } := fun b n => by
  have h := h b n; cases b <;> first | exact h | exact absurd hb n

theorem OnlyChanges.set_mgc {bs : List Block} {s u : State} (h : OnlyChanges bs s u) (v : Mgc)
    (hb : Block.mgc ∈ bs := by decide) : OnlyChanges bs s { u with mgc := v } := fun b n => by
  have h := h b n; cases b <;> first | exact h | exact absurd hb n

theorem OnlyChanges.set_cfs {bs : List Block} {s u : State} (h : OnlyChanges bs s u) (v : Cfs)
    (hb : Block.cfs ∈ bs := by decide) : OnlyChanges bs s { u with cfs := v } := fun b n => by
  have h := h b n; cases b <;> first | exact h | exact absurd hb n

/-! ### Record updates -/

theorem State.raise_only (s : State) (f : Flag) : OnlyChanges [.mgc] s (s.raise f) := by
  intro b hb; cases b <;> first | rfl | exact absurd (by decide) hb

theorem State.raiseSet_only (s : State) (f : BitVec 13) : OnlyChanges [.mgc] s (s.raiseSet f) := by
  intro b hb; cases b <;> first | rfl | exact absurd (by decide) hb

theorem State.advance_only (s : State) (t : Nat) : OnlyChanges [.clock] s (s.advance t) := by
  intro b hb; cases b <;> first | rfl | exact absurd (by decide) hb

theorem State.framed_only (s : State) (p : Port) (f : Framer) : OnlyChanges [.fcp, .mcp] s (s.framed p f) := by
  cases p <;> intro b hb <;> cases b <;> first | rfl | exact absurd (by decide) hb

theorem State.sendFront_only (s : State) (f : Frame) : OnlyChanges [.fcp] s (s.sendFront f) := by
  intro b hb; cases b <;> first | rfl | exact absurd (by decide) hb

theorem State.sendMedia_only (s : State) (f : Frame) : OnlyChanges [.mcp] s (s.sendMedia f) := by
  intro b hb; cases b <;> first | rfl | exact absurd (by decide) hb

theorem State.sendFrontData_only (s : State) (t : Fin 32) (x : Sector) (r : Option (BitVec 13)) :
    OnlyChanges [.fcp] s (s.sendFrontData t x r) := by
  intro b hb; cases b <;> first | rfl | exact absurd (by decide) hb

theorem State.modLane_only (s : State) (m : Fin 130) (f : Lane → Lane) : OnlyChanges [.mcp] s (s.modLane m f) := by
  intro b hb; cases b <;> first | rfl | exact absurd (by decide) hb

theorem State.settleTag_only (s : State) (m : Fin 130) : OnlyChanges [.mcp, .mar] s (s.settleTag m) := by
  intro b hb; cases b <;> first | rfl | exact absurd (by decide) hb

theorem State.modSlot_only (s : State) (i : Fin 18) (f : Slot → Slot) : OnlyChanges [.cph] s (s.modSlot i f) := by
  intro b hb; cases b <;> first | rfl | exact absurd (by decide) hb

theorem State.setCtx_only (s : State) (t : Fin 32) (c : Option Context) : OnlyChanges [.cxm] s (s.setCtx t c) := by
  intro b hb; cases b <;> first | rfl | exact absurd (by decide) hb

theorem State.modCtx_only (s : State) (t : Fin 32) (f : Context → Context) : OnlyChanges [.cxm] s (s.modCtx t f) := by
  intro b hb; cases b <;> first | rfl | exact absurd (by decide) hb

theorem State.modSeg_only (s : State) (t : Fin 32) (i : Nat) (f : Segment → Segment) :
    OnlyChanges [.cxm] s (s.modSeg t i f) := by
  intro b hb; cases b <;> first | rfl | exact absurd (by decide) hb

theorem State.dropHeld_only (s : State) (p : Fin 130 → Bool) : OnlyChanges [.cph] s (s.dropHeld p) := by
  intro b hb; cases b <;> first | rfl | exact absurd (by decide) hb

theorem State.discardReply_only (s : State) (f : BitVec 13) : OnlyChanges [.mgc] s (s.discardReply f) := by
  intro b hb; cases b <;> first | rfl | exact absurd (by decide) hb

theorem State.dropEnvelopes_only (s : State) (p : Envelope → Bool) : OnlyChanges [.aut] s (s.dropEnvelopes p) := by
  intro b hb; cases b <;> first | rfl | exact absurd (by decide) hb

theorem State.draw_only (s : State) : OnlyChanges [.draws] s (s.draw.1) := by
  intro b hb; cases b <;> first | rfl | exact absurd (by decide) hb

theorem State.modWork_only (s : State) (id : Nat) (f : Work → Work) : OnlyChanges [.mgc] s (s.modWork id f) := by
  intro b hb; cases b <;> first | rfl | exact absurd (by decide) hb

theorem State.finish_only (s : State) (id : Nat) (r : Reply) : OnlyChanges [.mgc] s (s.finish id r) := by
  intro b hb; cases b <;> first | rfl | exact absurd (by decide) hb

theorem State.setAuthority_only (s : State) (i : Fin 8) (a : Authority) :
    OnlyChanges [.aut] s (s.setAuthority i a) := by
  intro b hb; cases b <;> first | rfl | exact absurd (by decide) hb

theorem State.clearThrottle_only (s : State) (i : Fin 8) : OnlyChanges [.aut] s (s.clearThrottle i) := by
  intro b hb; cases b <;> first | rfl | exact absurd (by decide) hb

theorem State.markReleased_only (s : State) (i : Fin 18) : OnlyChanges [.cxm] s (s.markReleased i) := by
  intro b hb; cases b <;> first | rfl | exact absurd (by decide) hb

theorem State.startThrottles_only (s : State) : OnlyChanges [.aut] s (s.startThrottles) := by
  intro b hb; cases b <;> first | rfl | exact absurd (by decide) hb

theorem State.startConversion_only (s : State) (c : Conversion) : OnlyChanges [.bsc] s (s.startConversion c) := by
  intro b hb; cases b <;> first | rfl | exact absurd (by decide) hb

theorem State.powerStatus_only (s : State) (v : Byte) : OnlyChanges [.fcp] s (s.powerStatus v) := by
  intro b hb; cases b <;> first | rfl | exact absurd (by decide) hb

/-! ### Uses, tags and ports -/

/-- The seal on last use touches the Cipher Path only (R27). -/
theorem State.sealIfDue_only (s : State) (i : Fin 18) : OnlyChanges [.cph] s (s.sealIfDue i) := by
  unfold State.sealIfDue; split
  · split
    · exact State.modSlot_only _ _ _
    · exact .refl _ _
  · exact .refl _ _

/-- A released use touches the Cipher Path only (R25). -/
theorem State.releaseUse_only (s : State) (i : Fin 18) : OnlyChanges [.cph] s (s.releaseUse i) := (State.modSlot_only _ _ _).trans (State.sealIfDue_only _ _)

/-- An ABORT sent down changes the lane, the media send order and the issued list (R58). -/
theorem State.quiesce_only (s : State) (m : Fin 130) : OnlyChanges [.mcp, .mar] s (s.quiesce m) := by
  unfold State.quiesce; split
  · exact .refl _ _
  · exact (State.settleTag_only _ _).then ((State.modLane_only _ _ _).trans (State.sendMedia_only _ _))

/-- The segment of a host tag is found under its front tag and its index (R20). -/
theorem State.segAt_some {s : State} {m : Fin 130} {t : Fin 32} {i : Nat} {c : Context} {g : Segment}
    (h : s.segAt m = some (t, i, c, g)) : hostTag t i = m ∧ i < 4 ∧ s.ctx t = some c ∧ c.segs[i]? = some g := by
  unfold State.segAt at h
  split at h
  · cases h
  · next ho =>
    unfold tagOwner at ho
    split at ho
    · cases ho
      split at h
      · cases h
      · next hc =>
        simp only [Option.map_eq_some_iff, Prod.mk.injEq] at h
        obtain ⟨_, ha, rfl, rfl, rfl, rfl⟩ := h
        refine ⟨Fin.ext ?_, by omega, hc, ha⟩
        simp only [hostTag]; omega
    · cases ho

/-- When a tag's segment drains (R45, R60). -/
theorem State.draining_iff (s : State) (m : Fin 130) :
    s.draining m = true ↔
      ∃ t i c g, s.segAt m = some (t, i, c, g) ∧ c.state ≠ .aborting ∧ g.phase = .draining ∧ s.mcp.lanes[m].quiesced = false := by
  unfold State.draining
  split
  · next h => simp [h, and_assoc]
  · next h => simp [h]

/-- Why a tag is in use (R72). -/
theorem State.inUse_iff (s : State) (m : Fin 130) :
    s.inUse m = true ↔ m ∈ s.mar.issued ∨ s.quiescing m = true ∨ s.draining m = true := by
  simp [State.inUse, or_assoc]

/-- A tag in use that neither quiesces nor drains has an issued command (R72). -/
theorem State.issued_of_inUse {s : State} {m : Fin 130} (h : s.inUse m = true) (q : s.quiescing m = false)
    (d : s.draining m = false) : m ∈ s.mar.issued := by
  simpa [q, d] using (s.inUse_iff m).1 h

/-- States with the same tags in use have the same number of outstanding commands (R72, R77). -/
theorem State.outstanding_congr {s u : State} (h : ∀ m, u.inUse m = s.inUse m) : u.outstanding = s.outstanding :=
  congrArg (fun p => ((List.finRange 130).filter p).length) (funext h)

/-- Where no tag quiesces or drains, the outstanding commands are the issued ones (R77). -/
theorem State.outstanding_eq_issued (s : State) (hi : s.mar.issued.Nodup) (hq : ∀ m, s.quiescing m = false)
    (hd : ∀ m, s.draining m = false) : s.outstanding = s.mar.issued.length := by
  refine List.Perm.length_eq ((List.perm_ext_iff_of_nodup ((List.nodup_finRange _).filter _) hi).2 fun m => ?_)
  simp [s.inUse_iff, hq, hd]

/-- A command that puts no tag into use adds none to the count (R72, R77). -/
theorem State.outstanding_mono {s u : State} (h : ∀ m, u.inUse m = true → s.inUse m = true) : u.outstanding ≤ s.outstanding :=
  (List.monotone_filter_right _ h).length_le

/-- The tags of sweep chunks and of the own IDENTIFY have no segment to drain (R72). -/
theorem State.draining_of_not_host (s : State) {m : Fin 130} (h : 128 ≤ m.val) : s.draining m = false := by
  simp [State.draining, State.segAt, tagOwner, Nat.not_lt.2 h]

/-- A media timer restarted touches the lanes only (R56). -/
theorem State.restartTimer_only (s : State) (m : Fin 130) : OnlyChanges [.mcp] s (s.restartTimer m) := by
  unfold State.restartTimer; split
  · exact State.modLane_only _ _ _
  · exact .refl _ _

/-- A segment's use released (R25). -/
theorem State.releaseSeg_only (s : State) (t : Fin 32) (i : Nat) : OnlyChanges [.cxm, .cph] s (s.releaseSeg t i) := by
  unfold State.releaseSeg
  split
  · exact .refl _ _
  · split
    · exact .refl _ _
    · split
      · exact (State.modSeg_only _ _ _ _).then (State.releaseUse_only _ _)
      · exact (State.modSeg_only _ _ _ _).mono

/-- The end of a context sends one frame and frees it (R54, R60). -/
theorem State.endCtx_only (s : State) (t : Fin 32) : OnlyChanges [.fcp, .cxm] s (s.endCtx t) := by
  unfold State.endCtx; split
  · exact .refl _ _
  · exact (State.sendFront_only _ _).then (State.setCtx_only _ _ _)

theorem State.afterLeaving_only (s : State) (n : Nat) : OnlyChanges [.stg] s (s.afterLeaving n) := by
  unfold State.afterLeaving; split
  · intro b hb; cases b <;> first | rfl | exact absurd (by decide) hb
  · exact .refl _ _

/-- Staged sectors discarded: the Staging Buffer only (R71). -/
theorem State.dropStaged_only (s : State) (p : Fin 130 → Bool) : OnlyChanges [.stg] s (s.dropStaged p) := by
  refine OnlyChanges.to ?_ (State.afterLeaving_only _ _)
  intro b hb; cases b <;> first | rfl | exact absurd (by decide) hb

/-- A segment to be discarded: its phase, its lane and its grants (R42). -/
theorem State.startDiscarding_only (s : State) (t : Fin 32) (i n : Nat) :
    OnlyChanges [.cxm, .mcp] s (s.startDiscarding t i n) := by
  intro b hb; cases b <;> first | rfl | exact absurd (by decide) hb

theorem State.discardLater_only (s : State) (t : Fin 32) (i : Nat) :
    OnlyChanges [.cxm, .mcp] s (s.discardLater t i) := by
  refine OnlyChanges.foldl (fun s j => ?_) _ _
  split
  · exact .refl _ _
  · split
    · exact .refl _ _
    · split
      · exact .refl _ _
      · split
        · exact State.startDiscarding_only _ _ _ _
        · split
          · exact (State.modSeg_only _ _ _ _).mono
          · exact .refl _ _

/-- A failed segment: contexts, slots and return buffer, lanes, staged sectors (R42, R55). -/
theorem State.failSeg_only (s : State) (t : Fin 32) (i : Nat) (e : SegError) :
    OnlyChanges [.cxm, .cph, .mcp, .stg] s (s.failSeg t i e) := by
  unfold State.failSeg
  split
  · exact .refl _ _
  · split
    · exact .refl _ _
    · have h : ∀ m f, OnlyChanges [.cxm, .cph, .mcp, .stg] s ((s.releaseSeg t i).modLane m f) := fun m f =>
        ((State.releaseSeg_only s t i).mono).to (State.modLane_only _ _ _)
      dsimp only
      split
      · exact (h _ _).to (State.modSeg_only _ _ _ _)
      · split
        · exact ((h _ _).to (State.dropStaged_only _ _)).to (State.modSeg_only _ _ _ _)
        · exact (((h _ _).to (State.modSeg_only _ _ _ _)).to (State.dropHeld_only _ _)).to (State.discardLater_only _ _ _)
        · exact ((h _ _).to (State.modSeg_only _ _ _ _)).to (State.dropHeld_only _ _)
        · exact (h _ _).to (State.modSeg_only _ _ _ _)

/-- A finished segment (R55). -/
theorem State.finishSeg_only (s : State) (t : Fin 32) (i : Nat) :
    OnlyChanges [.cxm, .cph, .mcp] s (s.finishSeg t i) := ((State.releaseSeg_only s t i).then (ds := [.cxm, .cph]) (State.modSeg_only _ _ _ _)).then (State.modLane_only _ _ _)

/-- A segment joins the ready queue (R47). -/
theorem State.handOver_only (s : State) (t : Fin 32) (i : Nat) : OnlyChanges [.cxm, .mar] s (s.handOver t i) := by
  unfold State.handOver; dsimp only; split
  · exact .refl _ _
  · intro b hb; cases b <;> first | rfl | exact absurd (by decide) hb

theorem State.handOverAll_only (s : State) (t : Fin 32) : OnlyChanges [.cxm, .mar] s (s.handOverAll t) := by
  refine OnlyChanges.foldl (fun s j => ?_) _ _
  split
  · split
    · exact State.handOver_only _ _ _
    · exact .refl _ _
  · exact .refl _ _

/-- A marked SEC_RECV that goes away touches the Management Channel only (R176). -/
theorem State.unmark_only (s : State) (t : Fin 32) : OnlyChanges [.mgc] s (s.unmark t) := by
  unfold State.unmark; dsimp only
  repeat' split
  all_goals intro b hb; cases b <;> first | rfl | exact absurd (by decide) hb

theorem State.endIfAborted_only (s : State) (t : Fin 32) : OnlyChanges [.fcp, .cxm] s (s.endIfAborted t) := by
  unfold State.endIfAborted
  split
  · split
    · exact State.endCtx_only _ _
    · exact .refl _ _
  · exact .refl _ _

/-- Giving up the segments of a context (R60 steps 2 to 4). -/
theorem State.giveUpSegs_only (s : State) (t : Fin 32) : OnlyChanges [.cxm, .cph, .mcp, .mar] s (s.giveUpSegs t) := by
  refine OnlyChanges.foldl (fun s j => ?_) _ _
  split
  · exact .refl _ _
  · have k : OnlyChanges [.cxm, .cph, .mcp, .mar] s (s.releaseSeg t j) := (State.releaseSeg_only s t j).mono
    dsimp only
    have h : ∀ v m f, OnlyChanges [.cxm, .cph, .mcp, .mar] s (({ s.releaseSeg t j with mar := v } : State).modLane m f) :=
      fun v m f => (k.set_mar v).to (State.modLane_only _ _ _)
    split
    · exact (h _ _ _).to (State.quiesce_only _ _)
    · split
      · exact (h _ _ _).to (State.modSeg_only _ _ _ _)
      · exact h _ _ _

/-- An abort touches the context's own blocks only: no key record, no authority, no store (R60). -/
theorem State.abortCtx_only (s : State) (t : Fin 32) (st : FrontStatus) :
    OnlyChanges [.fcp, .cxm, .cph, .mcp, .mar, .stg, .mgc] s (s.abortCtx t st) := by
  unfold State.abortCtx
  split
  · exact .refl _ _
  · split
    · split
      · exact (State.modCtx_only _ _ _).mono
      · exact .refl _ _
    · refine OnlyChanges.to ?_ (State.endIfAborted_only _ _)
      refine OnlyChanges.to ?_ (State.unmark_only _ _)
      refine OnlyChanges.to ?_ (State.dropHeld_only _ _)
      refine OnlyChanges.to ?_ (State.dropStaged_only _ _)
      exact ((State.giveUpSegs_only s t).mono.to (State.modCtx_only _ _ _)).set_stg _

/-- The end of quiescing (R58). -/
theorem State.endQuiesce_only (s : State) (m : Fin 130) :
    OnlyChanges [.fcp, .cxm, .mcp, .mar] s (s.endQuiesce m) := by
  unfold State.endQuiesce; dsimp only
  have h : ∀ f, OnlyChanges [.fcp, .cxm, .mcp, .mar] s (s.modLane m f) := fun f => (State.modLane_only s m f).mono
  split
  · exact h _
  · split
    · exact (h _).to (State.endIfAborted_only _ _)
    · split
      · exact (h _).to (State.handOver_only _ _ _)
      · exact h _

/-! ### The end of a command -/

/-- The start of a store write touches the store only (R187). -/
theorem State.pump_only (s : State) : OnlyChanges [.cfs] s (s.pump) := by
  unfold State.pump
  split
  · split
    · exact .refl _ _
    · intro b hb; cases b <;> first | rfl | exact absurd (by decide) hb
  · exact .refl _ _

/-- Media timers stop and start in the lanes only (R56). -/
theorem State.retime_only (s : State) : OnlyChanges [.mcp] s (s.retime) := OnlyChanges.foldl (fun _ _ => State.modLane_only _ _ _) _ _

/-- What every command ends with touches lanes and store only. -/
theorem State.settle_only (s : State) : OnlyChanges [.mcp, .cfs] s (s.settle) := (State.pump_only s).then (State.retime_only _)

/-- Starting a write moves entries and loses none (R187). -/
@[simp] theorem State.pump_storeEntries (s : State) : s.pump.storeEntries = s.storeEntries := by
  unfold State.pump
  split
  · next e es hw hq =>
    split
    · rfl
    · cases hl : s.cfs.waiting <;> simp [State.storeEntries, hw, hq, hl]
  · rfl

/-- Starting a write changes no stored record (R187). -/
@[simp] theorem State.pump_nv (s : State) : s.pump.cfs.nv = s.cfs.nv := by
  unfold State.pump
  split
  · split <;> rfl
  · rfl

/-- The end of a command loses no entry of the store. -/
@[simp] theorem State.settle_storeEntries (s : State) : s.settle.storeEntries = s.storeEntries := by
  have h : s.settle.cfs = s.pump.cfs := State.retime_only s.pump .cfs (by simp)
  rw [← State.pump_storeEntries s]
  simp [State.storeEntries, h]

/-- The end of a command changes no stored record. -/
@[simp] theorem State.settle_nv (s : State) : s.settle.cfs.nv = s.cfs.nv := by
  have h : s.settle.cfs = s.pump.cfs := State.retime_only s.pump .cfs (by simp)
  simp [h]

/-- A lane without its timer. -/
def Lane.untimed (l : Lane) : Lane := { l with timer := none }

/-- The end of a command leaves every lane as it was but for its timer (R56). -/
theorem State.retime_untimed (s : State) (m : Nat) (h : m < 130) :
    (s.retime.mcp.lanes[m]).untimed = (s.mcp.lanes[m]).untimed := by
  unfold State.retime
  generalize s.mar.issued = l
  induction l generalizing s with
  | nil => rfl
  | cons x xs ih =>
    rw [List.foldl_cons, ih]
    by_cases e : x.val = m <;> simp [State.modLane, getElem_upd, e, retimed, Lane.untimed]


@[simp] theorem State.settle_fcp (s : State) : s.settle.fcp = s.fcp := s.settle_only .fcp (by simp)

@[simp] theorem State.settle_rrs (s : State) : s.settle.rrs = s.rrs := s.settle_only .rrs (by simp)

@[simp] theorem State.settle_cph (s : State) : s.settle.cph = s.cph := s.settle_only .cph (by simp)

@[simp] theorem State.settle_cxm (s : State) : s.settle.cxm = s.cxm := s.settle_only .cxm (by simp)

@[simp] theorem State.settle_stg (s : State) : s.settle.stg = s.stg := s.settle_only .stg (by simp)

@[simp] theorem State.settle_flow (s : State) : s.settle.flow = s.flow := s.settle_only .flow (by simp)

@[simp] theorem State.settle_mar (s : State) : s.settle.mar = s.mar := s.settle_only .mar (by simp)

@[simp] theorem State.settle_aut (s : State) : s.settle.aut = s.aut := s.settle_only .aut (by simp)

@[simp] theorem State.settle_bsc (s : State) : s.settle.bsc = s.bsc := s.settle_only .bsc (by simp)

@[simp] theorem State.settle_rsp (s : State) : s.settle.rsp = s.rsp := s.settle_only .rsp (by simp)

@[simp] theorem State.settle_wsq (s : State) : s.settle.wsq = s.wsq := s.settle_only .wsq (by simp)

@[simp] theorem State.settle_rtb (s : State) : s.settle.rtb = s.rtb := s.settle_only .rtb (by simp)

@[simp] theorem State.settle_mgc (s : State) : s.settle.mgc = s.mgc := s.settle_only .mgc (by simp)

@[simp] theorem State.settle_clock (s : State) : s.settle.clock = s.clock := s.settle_only .clock (by simp)

@[simp] theorem State.settle_draws (s : State) : s.settle.draws = s.draws := s.settle_only .draws (by simp)

@[simp] theorem State.settle_pending (s : State) : s.settle.pending = s.pending := s.settle_only .pending (by simp)

/-! ### Locks, envelopes, store writes -/

/-- A retained key dropped (R155). -/
theorem State.dropRetained_only (s : State) (r : Fin 17) : OnlyChanges [.rtb] s (s.dropRetained r) := by
  unfold State.dropRetained; dsimp only
  repeat' split
  all_goals intro b hb; cases b <;> first | rfl | exact absurd (by decide) hb

/-- A lock while the bridge sleeps reaches the Retention Block only (R156). -/
theorem State.lockedAsleep_only (s : State) (r : Fin 17) (b : Bool) : OnlyChanges [.rtb] s (s.lockedAsleep r b) := by
  unfold State.lockedAsleep; dsimp only
  split
  · exact .refl _ _
  · split <;> split
    · refine OnlyChanges.to ?_ (State.dropRetained_only _ _)
      intro b hb; cases b <;> first | rfl | exact absurd (by decide) hb
    · intro b hb; cases b <;> first | rfl | exact absurd (by decide) hb
    · exact State.dropRetained_only _ _
    · exact .refl _ _

/-- A lock touches the range, its slot and the retained keys only (R5, R27, R156). -/
theorem State.lockRange_only (s : State) (r : Fin 17) (rd wr : Bool) :
    OnlyChanges [.rrs, .cph, .rtb] s (s.lockRange r rd wr) := by
  unfold State.lockRange; dsimp only
  split
  · refine OnlyChanges.to ?_ (State.lockedAsleep_only _ _ _)
    refine OnlyChanges.to ?_ (State.sealIfDue_only _ _)
    intro b hb; cases b <;> first | rfl | exact absurd (by decide) hb
  · exact .refl _ _

theorem State.lockWhere_only (s : State) (p : Range → Bool) : OnlyChanges [.rrs, .cph, .rtb] s (s.lockWhere p) := by
  refine OnlyChanges.foldl (fun s r => ?_) _ _
  split
  · exact State.lockRange_only _ _ _ _
  · exact .refl _ _

/-- An envelope created touches the Envelope Table only (R85). -/
theorem State.addEnvelope_only (s : State) (o : Owner) (r : Fin 18) (x : Secret) (k : Key) :
    OnlyChanges [.aut] s ((s.addEnvelope o r x k).1) := by
  unfold State.addEnvelope
  split
  · exact .refl _ _
  · intro b hb; cases b <;> first | rfl | exact absurd (by decide) hb

/-- A queued write touches the store queue only (R187). -/
theorem State.queueWrite_only (s : State) (r : Record) (ws : List Writer) :
    OnlyChanges [.cfs] s (s.queueWrite r ws) := by
  unfold State.queueWrite
  repeat' split
  all_goals intro b hb; cases b <;> first | rfl | exact absurd (by decide) hb

theorem State.queueRecord_only (s : State) (i : RecordId) (ws : List Writer) :
    OnlyChanges [.cfs] s (s.queueRecord i ws) := State.queueWrite_only _ _ _

theorem State.queueRecords_only (s : State) (is : List RecordId) (ws : List Writer) :
    OnlyChanges [.cfs] s (s.queueRecords is ws) := OnlyChanges.foldl (fun _ _ => State.queueRecord_only _ _ _) _ _

theorem State.startWrite_only (s : State) (id : Nat) (w : Write) : OnlyChanges [.cfs] s (s.startWrite id w) := by
  cases w
  · exact State.queueRecord_only _ _ _
  · exact State.queueWrite_only _ _ _

theorem State.startPhase_only (s : State) (id : Nat) (ws : List Write) :
    OnlyChanges [.cfs] s (s.startPhase id ws) := OnlyChanges.foldl (fun _ _ => State.startWrite_only _ _ _) _ _

/-- A request's writes: the store queue and the work's later writes (R189). -/
theorem State.persist_only (s : State) (id : Nat) (ps : List (List Write)) :
    OnlyChanges [.cfs, .mgc] s (s.persist id ps) := by
  unfold State.persist
  split
  · exact .refl _ _
  · exact (State.startPhase_only _ _ _).then (State.modWork_only _ _ _)

/-! ### Erase, sources, sweep, capacity -/

theorem State.setErased_only (s : State) (i : Fin 18) (b : Bool) : OnlyChanges [.rrs] s (s.setErased i b) := by
  unfold State.setErased; split
  · intro b hb; cases b <;> first | rfl | exact absurd (by decide) hb
  · intro b hb; cases b <;> first | rfl | exact absurd (by decide) hb

/-- A crypto-erase (R31, R137): contexts, slots, envelopes, erase states, retained keys, and no stored record. -/
theorem State.cryptoErase_only (s : State) (i : Fin 18) :
    OnlyChanges [.fcp, .cxm, .cph, .mcp, .mar, .stg, .mgc, .aut, .rrs, .rtb] s (s.cryptoErase i) := by
  unfold State.cryptoErase; dsimp only
  have h : ∀ f p, OnlyChanges [.fcp, .cxm, .cph, .mcp, .mar, .stg, .mgc, .aut, .rrs, .rtb] s
      ((((s.markReleased i).modSlot i f).dropEnvelopes p).setErased i true) := fun f p =>
    ((((State.markReleased_only s i).mono).to (State.modSlot_only _ _ _)).to (State.dropEnvelopes_only _ _)).to
      (State.setErased_only _ _ _)
  have k : ∀ (u : State) (t : Fin 32), OnlyChanges [.fcp, .cxm, .cph, .mcp, .mar, .stg, .mgc] u
      (match u.ctx t with | some c => if c.holds i then u.abortCtx t .erased else u | none => u) := fun u t => by
    split
    · split
      · exact State.abortCtx_only _ _ _
      · exact .refl _ _
    · exact .refl _ _
  split
  · exact ((h _ _).to (OnlyChanges.foldl k _ _)).to (State.dropRetained_only _ _)
  · exact (h _ _).to (OnlyChanges.foldl k _ _)

theorem State.restartChunks_only (s : State) (o : Order) : OnlyChanges [.mar, .wsq] s (s.restartChunks o) := by
  unfold State.restartChunks; split
  · intro b hb; cases b <;> first | rfl | exact absurd (by decide) hb
  · exact .refl _ _

/-- An erase order (R136 to R138). -/
theorem State.eraseOrder_only (s : State) (o : Order) (ws : List Writer) :
    OnlyChanges [.fcp, .cxm, .cph, .mcp, .mar, .stg, .mgc, .aut, .rrs, .rtb, .wsq, .cfs] s (s.eraseOrder o ws) := by
  unfold State.eraseOrder; dsimp only
  refine OnlyChanges.to ?_ (State.queueRecords_only _ _ _)
  refine OnlyChanges.to ?_ (State.queueRecords_only _ _ _)
  refine OnlyChanges.to ?_ (State.queueRecord_only _ _ _)
  refine OnlyChanges.to ?_ (OnlyChanges.foldl (fun _ _ => State.cryptoErase_only _ _) _ _)
  exact (State.restartChunks_only s o).mono.set_wsq _

/-- A source joins the pending set (R120). -/
theorem State.latchOnly_only (s : State) (x : Source) : OnlyChanges [.rsp, .mgc, .cfs] s (s.latchOnly x) := by
  unfold State.latchOnly; split
  · exact .refl _ _
  · refine OnlyChanges.to ?_ (State.queueRecord_only _ _ _)
    intro b hb; cases b <;> first | rfl | exact absurd (by decide) hb

/-- An action started (R124, R125). -/
theorem State.startAction_only (s : State) (i : Fin 6) (a : Action) :
    OnlyChanges [.fcp, .cxm, .cph, .mcp, .mar, .stg, .mgc, .aut, .rrs, .rtb, .wsq, .cfs, .rsp] s (s.startAction i a) := by
  unfold State.startAction; dsimp only
  have h : OnlyChanges [.rrs, .cph, .rtb, .mgc] s (s.lockStep.raise .actionStarted) :=
    (State.lockWhere_only s _).then (State.raise_only _ _)
  split
  · exact .refl _ _
  · split
    · refine OnlyChanges.to ?_ (State.eraseOrder_only _ _ _)
      refine OnlyChanges.to ?_ (State.queueRecord_only _ _ _)
      exact h.mono.set_rsp _
    · exact h.mono

/-- The evaluation of the effective actions (R123). -/
theorem State.evaluate_only (s : State) :
    OnlyChanges [.fcp, .cxm, .cph, .mcp, .mar, .stg, .mgc, .aut, .rrs, .rtb, .wsq, .cfs, .rsp] s (s.evaluate) := by
  unfold State.evaluate
  refine OnlyChanges.to ?_ (OnlyChanges.foldl (fun _ _ => State.startAction_only _ _ _) _ _)
  intro b hb; cases b <;> first | rfl | exact absurd (by decide) hb

/-- A latch report (R120). -/
theorem State.latch_only (s : State) (x : Source) :
    OnlyChanges [.fcp, .cxm, .cph, .mcp, .mar, .stg, .mgc, .aut, .rrs, .rtb, .wsq, .cfs, .rsp] s (s.latch x) := by
  unfold State.latch; split
  · exact .refl _ _
  · exact (State.latchOnly_only _ _).then (State.evaluate_only _)

/-- A source cleared by the bridge (R121). -/
theorem State.clearSource_only (s : State) (x : Source) :
    OnlyChanges [.fcp, .cxm, .cph, .mcp, .mar, .stg, .mgc, .aut, .rrs, .rtb, .wsq, .cfs, .rsp] s (s.clearSource x) := by
  unfold State.clearSource; split
  · refine OnlyChanges.to ?_ (State.evaluate_only _)
    refine OnlyChanges.to ?_ (State.queueRecord_only _ _ _)
    intro b hb; cases b <;> first | rfl | exact absurd (by decide) hb
  · exact .refl _ _

/-- The completion effects of a full sweep (R146). -/
theorem State.fullWipeEffects_only (s : State) :
    OnlyChanges [.fcp, .cxm, .cph, .mcp, .mar, .stg, .mgc, .aut, .rrs, .rtb, .wsq, .cfs, .rsp] s (s.fullWipeEffects) := by
  unfold State.fullWipeEffects; dsimp only
  refine OnlyChanges.to ?_ (State.queueRecords_only _ _ _)
  refine OnlyChanges.to ?_ (State.queueRecords_only _ _ _)
  refine OnlyChanges.to ?_ (State.clearSource_only _ _)
  refine OnlyChanges.to ?_ (State.dropEnvelopes_only _ _)
  intro b hb; cases b <;> first | rfl | exact absurd (by decide) hb

/-- The end of a sweep (R145). -/
theorem State.finishSweep_only (s : State) (was : WipeRec) :
    OnlyChanges [.fcp, .cxm, .cph, .mcp, .mar, .stg, .mgc, .aut, .rrs, .rtb, .wsq, .cfs, .rsp] s (s.finishSweep was) := by
  unfold State.finishSweep; dsimp only
  split
  · refine OnlyChanges.to ?_ (State.fullWipeEffects_only _)
    intro b hb; cases b <;> first | rfl | exact absurd (by decide) hb
  · refine OnlyChanges.to ?_ (State.queueRecord_only _ _ _)
    intro b hb; cases b <;> first | rfl | exact absurd (by decide) hb

/-- The end of a chunk (R143, R144). -/
theorem State.endChunk_only (s : State) (e : Bool) :
    OnlyChanges [.fcp, .cxm, .cph, .mcp, .mar, .stg, .mgc, .aut, .rrs, .rtb, .wsq, .cfs, .rsp] s (s.endChunk e) := by
  unfold State.endChunk; dsimp only
  split
  · split
    · intro b hb; cases b <;> first | rfl | exact absurd (by decide) hb
    · split
      · refine OnlyChanges.to ?_ (State.finishSweep_only _ _)
        intro b hb; cases b <;> first | rfl | exact absurd (by decide) hb
      · refine OnlyChanges.to ?_ (State.queueRecord_only _ _ _)
        intro b hb; cases b <;> first | rfl | exact absurd (by decide) hb
  · intro b hb; cases b <;> first | rfl | exact absurd (by decide) hb

theorem State.sweepAtCapacity_only (s : State) (c : Nat) :
    OnlyChanges [.fcp, .cxm, .cph, .mcp, .mar, .stg, .mgc, .aut, .rrs, .rtb, .wsq, .cfs, .rsp] s (s.sweepAtCapacity c) := by
  unfold State.sweepAtCapacity; dsimp only
  split
  · split
    · refine OnlyChanges.to ?_ (State.finishSweep_only _ _)
      intro b hb; cases b <;> first | rfl | exact absurd (by decide) hb
    · intro b hb; cases b <;> first | rfl | exact absurd (by decide) hb
  · exact .refl _ _

/-- The acceptance of C (R2): the capacity, and the sweep that waited for it. -/
theorem State.tryAccept_only (s : State) :
    OnlyChanges [.fcp, .cxm, .cph, .mcp, .mar, .stg, .mgc, .aut, .rrs, .rtb, .wsq, .cfs, .rsp] s (s.tryAccept) := by
  unfold State.tryAccept
  split
  · split
    · refine OnlyChanges.to ?_ (State.sweepAtCapacity_only _ _)
      intro b hb; cases b <;> first | rfl | exact absurd (by decide) hb
    · exact .refl _ _
  · exact .refl _ _

/-- An examination touches the request, the named authority's tries and the store queue only (R86, R87, R178). -/
theorem State.examine_only (s : State) (id : Nat) (q : Request) :
    OnlyChanges [.aut, .mgc, .cfs] s (s.examine id q) := by
  unfold State.examine; dsimp only
  split
  · exact (State.finish_only _ _ _).mono
  · split
    · exact (State.finish_only _ _ _).mono
    · split
      · exact (State.modWork_only _ _ _).mono
      · split
        · exact (State.finish_only _ _ _).mono
        · unfold State.tentative; dsimp only
          refine OnlyChanges.to ?_ (State.queueWrite_only _ _ _)
          refine OnlyChanges.to ?_ (State.modWork_only _ _ _)
          intro b hb; cases b <;> first | rfl | exact absurd (by decide) hb

/-- The intake of a request (R175). -/
theorem State.takeRequest_only (s : State) (t : Fin 32) (x : Sector) :
    OnlyChanges [.aut, .mgc, .cfs] s ((s.takeRequest t x).1) := by
  unfold State.takeRequest; dsimp only
  split
  · exact .refl _ _
  · refine OnlyChanges.to ?_ (State.examine_only _ _ _)
    split
    · split
      · intro b hb; cases b <;> first | rfl | exact absurd (by decide) hb
      · intro b hb; cases b <;> first | rfl | exact absurd (by decide) hb
    · intro b hb; cases b <;> first | rfl | exact absurd (by decide) hb

/-- The place given to an envelope is its present one, or an empty one (R84). -/
theorem State.placeFor_some {s : State} {o : Owner} {r : Fin 18} {p : Fin 64} (h : s.placeFor o r = some p) :
    (∃ e, s.aut.envelopes[p] = some e ∧ e.isFor o r = true) ∨ s.aut.envelopes[p] = none := by
  unfold State.placeFor at h
  split at h
  · rename_i q _ hq
    obtain rfl := Option.some.inj h
    have hm : q ∈ s.placesOf fun e => e.isFor o r := hq ▸ List.mem_cons_self
    simp only [State.placesOf, List.mem_filter] at hm
    cases he : s.aut.envelopes[q] with
    | none => exact .inr rfl
    | some e => exact .inl ⟨e, rfl, by simpa [he] using hm.2⟩
  · have hm : p ∈ (List.finRange 64).filter fun i => s.aut.envelopes[i].isNone := by
      rcases Option.or_eq_some_iff.mp h with h | ⟨_, h⟩
      · rcases Option.or_eq_some_iff.mp h with h | ⟨_, h⟩ <;> exact List.mem_of_find?_eq_some h
      · exact List.mem_of_mem_head? h
    exact .inr (by simpa using (List.mem_filter.mp hm).2)

/-- What a request served by its owning block has met (log 3, R90). -/
theorem State.readyFor_some {s : State} {k : ReqKind} {w : Work} (h : s.readyFor k = some w) :
    s.rtb.sleep = .awake ∧ w ∈ s.mgc.works ∧ w.stage = .ready ∧ w.req.code = k.code ∧ s.heldByVerify w = false := by
  unfold State.readyFor at h
  split at h
  · have hp := List.find?_some h
    simp only [Bool.and_eq_true, beq_iff_eq, Bool.not_eq_true'] at hp
    exact ⟨‹_›, List.mem_of_find?_eq_some h, hp.1.1, hp.1.2, hp.2⟩
  · cases h

/-- Outside the time between the end of a full sweep and its DONE record the wipe record is stored as it stands, or as its closing
write has it (R138, R145). -/
theorem State.storedWipe_of_not_pending {s : State} (h : s.wsq.donePending = false) :
    s.storedWipe = if s.wsq.eraseStage = .closing then s.closingForm else s.wsq.wipe := by
  unfold State.storedWipe
  cases s.wsq.unfinished <;> simp [h]

end Sys2Proof.Machine
end

