-- ==== Sys2Proof/WellFormed.lean ====
section
/-! DEFINITION. Which commands the block can meet: the operands are those that the frames and the events of the spec can
carry (R162, R163, 10.2, 10.6). A command that is not well formed still has a meaning (log 31). -/

namespace Sys2Proof

open Machine

/-- A front tag (10.2, R163). -/
def frontTagOk (t : Byte) : Bool := decide (t.toNat ≤ 31)

/-- A media tag that the bridge issues (10.2). -/
def mediaTagOk (t : Byte) : Bool := decide (t.toNat ≤ 129)

/-- The operands of a command are ones that its frame or event can carry. Media frames may name any tag (R76). -/
def Instr.wellFormed : Instr → Bool
  | .powerOn _ _ corrupt => decide (corrupt.map Record.id).Nodup
  | .frameCheckFail p bytes _ => (parseFrame p bytes).isNone
  | .read t _ _ _ | .write t _ _ _ | .trim t _ _ _ | .flush t _ | .pass t _ _ _ _ | .identify t _ | .secSend t _ _
  | .secRecv t _ _ | .frontData t _ _ _ | .frontAbort t _ => frontTagOk t
  | .mediaStat _ status _ _ => decide (status.toNat ≤ 1)
  | .mediaGrant _ count _ => count != 0
  | .mediaTimeout t | .quiesceTimeout t | .stagedSectorSend t => mediaTagOk t
  | .dataTimeout t | .commandComplete t | .sectorDelivery t => frontTagOk t
  | .deintegratingEnd d => decide (d ≤ 6400)
  | .mediaData _ _ _ _ | .mediaAbort _ _ | .sleep _ | .wake _ | .linkReset _ | .frontGrant | .readGrant
  | .mediaArbiterIssue | .chunkOffer | .verifyStart | .verifyEnd | .replyReady | .storeWriteDone _ | .sleepEntered | .retentionExpiry
  | .zeroingEnd | .integratingEnd | .queryStatus | .readEvents | .setNoteMask | .unlock | .lock | .bootDone
  | .setAuthority | .setCredential | .resetAuthority | .setDeadstart | .defineRanges | .modifyPolicy | .setBootWindow
  | .bootImageWrite | .measureBay | .enrollBay | .setBindPolicy | .setResponse | .ackSources | .wipe | .rekey | .setFlow
  | .setRetention | .frameSend _ => true

end Sys2Proof
end

