-- ==== Sys2Proof/Tests/Slice0.lean ====
section
/-! SUPPORT. Tests: the checks of WellFormed, small steps whose expected values come from the manual's worked examples and
tables, and for each statement with hypotheses states and operands that meet them. -/

namespace Sys2Proof.Tests

open Machine

/-! ### WellFormed: a term that each check refuses -/

theorem test_ill_formed_powerOn : (Instr.powerOn false false [.tail true, .tail false]).wellFormed = false := by decide
theorem test_ill_formed_frameCheckFail :
    (Instr.frameCheckFail .front [0x55, 0xAA, 0x05, 0x00, 0xE2, 0xFA] .idle).wellFormed = false := by
  decide +kernel
theorem test_ill_formed_front_tags :
    [Instr.read 32 0 1 .idle, .write 32 0 1 .idle, .trim 32 0 1 .idle, .flush 32 .idle, .pass 32 0 0 0 .idle,
      .identify 32 .idle, .secSend 32 1 .idle, .secRecv 32 1 .idle, .frontData 32 false zeroSector .idle, .frontAbort 32 .idle,
      .dataTimeout 32, .commandComplete 32, .sectorDelivery 32].all (fun c => !c.wellFormed) = true := by decide
theorem test_ill_formed_media_tags :
    [Instr.mediaTimeout 130, .quiesceTimeout 130, .stagedSectorSend 130].all (fun c => !c.wellFormed) = true := by decide
theorem test_ill_formed_mediaStat : (Instr.mediaStat 0 2 0 .idle).wellFormed = false := by decide
theorem test_ill_formed_mediaGrant : (Instr.mediaGrant 0 0 .idle).wellFormed = false := by decide
theorem test_ill_formed_deintegratingEnd : (Instr.deintegratingEnd 6401).wellFormed = false := by decide
theorem test_well_formed_last_tags :
    [Instr.read 31 0 0 .idle, .mediaTimeout 129, .mediaGrant 255 65535 .idle, .mediaStat 255 1 0 (.receiving 1),
      .deintegratingEnd 6400].all
      Instr.wellFormed = true := by decide

/-! ### The manual's worked examples -/

/-- The whole frame of 10.6: an ABORT of tag 5. -/
theorem test_abort_frame_of_10_6 : (Frame.abort 5).bytes = [0x55, 0xAA, 0x05, 0x00, 0xE2, 0xFA] := by decide +kernel

/-- The drive of "Worked examples of resolution" (1.5). -/
def drive (bootDone write1 : Bool) : State :=
  { State.reset with
    rrs.capacity := some 976773168
    rrs.window := ⟨65536, true⟩
    rrs.bootDone := bootDone
    rrs.ranges := (State.reset.rrs.ranges.set 1
      ⟨⟨some ⟨2048, 204800⟩, ⟨true, true, false, false, false⟩, false⟩, false, write1⟩).set 2
      ⟨⟨some ⟨206848, 409600⟩, ⟨true, false, true, false, false⟩, false⟩, true, false⟩
    cph.slots := (State.reset.cph.slots.set 1 ⟨.live 1, 0⟩).set 2 ⟨.sealed, 0⟩ }

/-- A row of the worked examples of resolution. -/
structure Row where
  extent : Option Extent
  treatment : Option Treatment
  mediaLba : Option Nat
  slot : Option (Fin 18)
  deriving DecidableEq

/-- What a resolution below a visible capacity answers: its reason for refusal, or its rows. -/
def rowsOf (v : Nat) (s : State) (isRead : Bool) (start n : Nat) :
    Option FrontStatus × List Row :=
  match s.resolve v isRead start n with
  | .error e => (some e, [])
  | .ok segs => (none, segs.map fun g => ⟨g.extent, g.treatment, g.mediaStart, g.slot⟩)

/-- Those of the drive of 1.5. -/
abbrev rows := rowsOf 976707632

theorem test_resolution_example_A : rows (drive true false) true 206840 16 =
    (none, [⟨some ⟨206840, 8⟩, some .media, some 206840, some 1⟩, ⟨some ⟨206848, 8⟩, some .fill, none, some 2⟩]) := by decide +kernel
theorem test_resolution_example_B : rows (drive false false) true 65530 12 =
    (none, [⟨some ⟨65530, 6⟩, some .media, some 976773162, some 17⟩, ⟨some ⟨65536, 6⟩, some .media, some 65536, some 1⟩]) := by
  decide +kernel
theorem test_resolution_example_C : rows (drive false true) false 65528 16 = (some .windowReadOnly, []) := by decide +kernel
theorem test_resolution_example_E : rows (drive true false) true 976707600 64 = (some .outOfRange, []) ∧
    rows (drive true false) true 976642096 65536 =
      (none, [⟨some ⟨976642096, 65536⟩, some .media, some 976642096, some 0⟩]) := by decide +kernel

/-- "The ratio of one bay" (6.3): 4.7 kΩ against 10 kΩ with window 445..495, 22 kΩ, and a short. -/
theorem test_ratio_of_one_bay :
    (ratio .fine 1504 = 470 ∧ ratio .standard 752 = 470 ∧ ratio .coarse 188 = 470 ∧ ratio .fine 1505 = 470) ∧
    bindingClass ⟨some (445, 495), .strict, .standard, false⟩ .fine 1504 = .hit ∧
    bindingClass ⟨some (445, 495), .strict, .standard, false⟩ .fine 6400 = .openBay ∧
    bindingClass ⟨some (445, 495), .strict, .standard, false⟩ .fine 199 = .short := by decide

/-- The throttle schedule of "Running out of tries" (5.3): 250, 500, 1,000 and 2,000 ms. -/
theorem test_throttle_schedule : [1, 2, 3, 4, 8, 9].map throttleDelay = [250, 500, 1000, 2000, 32000, 32000] := by decide

/-! ### Small states for the witnesses -/

/-- A bridge that is READY with C = 976,773,168 and no window. -/
def base : State :=
  { State.reset with rrs.capacity := some 976773168, rrs.offered := some 976773168, mar.identify := false }

/-- A request of a kind that has reached its owning block. -/
def asked (k : ReqKind) (auth : Byte) (body : List Byte) : Work :=
  { id := 0
    req := ⟨k.code, auth, body.length, sectorOfBytes (List.replicate 36 0 ++ body)⟩
    cred := some Config.factoryCredential
    carrier := 3
    detached := false
    overtaken := false
    storeFailed := false
    stage := .ready
    later := [] }

/-- A bridge that works one request. -/
def working (w : Work) : State :=
  { base with mgc.channel := .working, mgc.works := [w], mgc.nextId := 1 }

/-- A segment on the media of range 0: LBAs [8, 8 + n). -/
def seg (n : Nat) (p : Phase) : Segment := ⟨some ⟨8, n⟩, some 8, some .media, some 0, none, p, true⟩

/-- A context with one such segment. -/
def one (op : Opcode) (n : Nat) (p : Phase) (st : CtxState) : Context :=
  { Context.fresh op with start := some 8, count := some n, segs := [seg n p], state := st }

/-- Front tag 31 holds a context; its media tag 124 is issued if asked. -/
def holding (c : Context) (issued : Bool) : State :=
  { base.setCtx 31 (some c) with mar.issued := if issued then [124] else [], cph.slots := base.cph.slots.set 0 ⟨.live 1, 1⟩ }

/-- User range 16 as the last range of the table: [976,773,160, 976,773,168) with some policy and flags. -/
def lastRange (p : Policy) (r w : Bool) (k : SlotKey) : State :=
  { base with
    rrs.ranges := base.rrs.ranges.set 16 ⟨⟨some ⟨976773160, 8⟩, p, false⟩, r, w⟩
    cph.slots := base.cph.slots.set 16 ⟨k, 0⟩ }

/-- A bridge with ARMED on, whose source 0 pends with an action effective. -/
def alarmed (x : Action) : State :=
  { base with
    rsp.src.pending := 1
    rsp.cfg := ⟨tab fun _ => 0, tab fun _ => x, 1, true, .eraseOnly⟩
    rsp.effective := (tab fun _ => none).set 0 (some x) }

/-- Such a request is the one its owning block takes: the hypothesis that the statements about requests share. -/
theorem test_asked_is_ready (k : ReqKind) (auth : Byte) (body : List Byte) :
    (working (asked k auth body)).readyFor k = some (asked k auth body) := by
  simp [State.readyFor, State.heldByVerify, Work.inVerify, working, base, State.reset, asked]

/-! ### Hypotheses met: the queue, frames and ports -/

theorem test_meets_StepRunsOldestCommand :
    ({ State.reset with pending := [.wake .idle] } : State).pending = .wake .idle :: [] ∧ State.reset.pending = [] := ⟨rfl, rfl⟩

theorem test_meets_CrcRule : parseFrame .front [0x55, 0xAA, 0x05, 0x00, 0xE2, 0xFA] = some (.abort 5) := by decide +kernel

theorem test_meets_FailedFramesAndSending :
    (parseFrame .front [0x55, 0xAA, 0x05, 0x00, 0xE2, 0xFA]).isSome = true ∧
    parseFrame .front [0x55, 0xAA, 0x05, 0x00, 0xE2, 0xFB] = none ∧ parseFrame .media [] = none ∧
    (base.sendFront (.abort 0)).fcp.sendOrder = [⟨.abort 0, none⟩] ∧ (base.sendMedia (.abort 0)).mcp.sendOrder = [.abort 0] ∧
    base.fcp.sendOrder = [] ∧ base.mcp.sendOrder = [] := by decide +kernel

/-! ### Hypotheses met: front commands -/

theorem test_meets_CommandsRefusedAtOnce :
    (let s : State := { base with rtb.sleep := .asleep }
     s.ctx 31 = none ∧ commandOf .idle (.cmd (frontByte 31) .flush 0 0 0) = some (.flush 31 .idle) ∧ s.rtb.sleep ≠ .awake) ∧
    (State.reset.ctx 31 = none ∧ commandOf .idle (.cmd (frontByte 31) .read 0 0 0) = some (.read 31 0 0 .idle) ∧
      State.reset.rtb.sleep = .awake ∧ State.reset.rrs.capacity = none) ∧
    (base.visible = some 976773168 ∧ rowsOf 976773168 base true 976773168 1 = (some .outOfRange, [])) ∧
    base.rtb.sleep = .awake ∧ commandOf .idle (.cmd (frontByte 31) .secSend 0 0 0) = some (.secSend 31 0 .idle) ∧
    commandOf .idle (.cmd (frontByte 31) .secRecv 0 2 0) = some (.secRecv 31 2 .idle) := by decide +kernel

/-- A WRITE whose grant of 8 frames waits. -/
def writing (p : Phase) (done : Nat) : Context :=
  { one .write 8 p .awaitData with grants := [⟨8 - done, 0⟩], done := done }

theorem test_meets_ContextsAreGivenUp :
    base.ctx 31 = none ∧ (holding (writing .pending 0) false).ctx 31 = some (writing .pending 0) ∧
    (writing .pending 0).state = .awaitData ∧ (writing .pending 0).deadline = some 16384000 ∧
    (holding (writing .pending 0) false).mgc.mark ≠ some 31 ∧
    commandOf .idle (.cmd (frontByte 31) .flush 0 0 0) = some (.flush 31 .idle) ∧
    ({ writing .pending 0 with segs := List.replicate 4 (seg 8 .pending) } : Context).segs.length ≤ 4 ∧
    (let x := { writing .pending 0 with state := .aborting }
     (holding x false).ctx 31 = some x ∧ x.state = .aborting) := by decide +kernel

/-- A layout of 5 pieces in LBAs [0, 40), the last open range without key, one of them ERASED if asked. -/
def pieces (erased : Bool) : State :=
  { base with
    rrs.ranges := (base.rrs.ranges.set 1 ⟨⟨some ⟨8, 8⟩, ⟨true, true, false, false, false⟩, erased⟩, !erased, false⟩).set 2
      ⟨⟨some ⟨24, 8⟩, ⟨true, true, true, false, false⟩, false⟩, true, true⟩
    cph.slots := (base.cph.slots.set 1 ⟨if erased then .destroyed else .live 1, 0⟩).set 2 ⟨.sealed, 0⟩ }

theorem test_meets_ResolutionCoversTheExtent :
    (∃ segs, (drive false false).resolve 976707632 true 65530 12 = .ok segs) ∧
    rowsOf 976773168 base true 976773167 2 = (some .outOfRange, []) ∧
    rows (drive false false) false 65535 1 = (some .windowReadOnly, []) ∧
    rowsOf 976773168 (pieces false) true 0 40 = (some .fragmented, []) ∧
    rowsOf 976773168 (pieces true) false 8 1 = (some .erased, []) ∧
    rowsOf 976773168 (pieces false) true 8 1 = (some .locked, []) ∧
    rowsOf 976773168 (pieces true) true 8 1 = (none, [⟨some ⟨8, 1⟩, some .fill, none, some 1⟩]) ∧
    rowsOf 976773168 (pieces false) true 24 8 = (none, [⟨some ⟨24, 8⟩, some .fill, none, some 2⟩]) ∧
    rowsOf 976773168 (pieces false) false 24 8 = (none, [⟨some ⟨24, 8⟩, some .absorb, none, some 2⟩]) ∧
    rowsOf 976773168 (pieces false) true 976773167 1 = (none, [⟨some ⟨976773167, 1⟩, some .media, some 976773167, some 0⟩]) := by
  refine ⟨⟨_, rfl⟩, ?_⟩
  decide +kernel

theorem test_meets_ReadsAndWritesAreTaken :
    base.ctx 31 = none ∧ base.rtb.sleep = .awake ∧ base.visible = some 976773168 ∧
    (∃ segs, base.resolve 976773168 true (976773167#48).toNat (sectorCount 1) = .ok segs) ∧
    ∃ segs, base.resolve 976773168 false (0#48).toNat (sectorCount 0) = .ok segs :=
  ⟨by decide, rfl, rfl, ⟨_, rfl⟩, _, rfl⟩

theorem test_meets_TrimIsTaken :
    (let s := lastRange ⟨true, true, true, false, false⟩ true true .sealed
     s.ctx 0 = none ∧ s.rtb.sleep = .awake ∧ s.visible = some 976773168 ∧
       ∃ segs, s.resolve 976773168 false (976773160#48).toNat (sectorCount 8) = .ok segs ∧ segs.any Segment.onMedia = false) ∧
    (∃ segs, base.resolve 976773168 false (0#48).toNat (sectorCount 8) = .ok segs ∧ segs.any Segment.onMedia = true) :=
  ⟨⟨by decide, rfl, rfl, _, rfl, by decide⟩, ⟨_, rfl, by decide⟩⟩

theorem test_meets_CommandsAreForwarded :
    base.ctx 31 = none ∧ base.rtb.sleep = .awake ∧ base.rrs.capacity.isSome = true := by decide

theorem test_meets_SecurityCommandsAreTaken : base.ctx 31 = none ∧ base.rtb.sleep = .awake := by decide

/-! ### Hypotheses met: front data -/

theorem test_meets_FrontDataTestsInOrder (body : Sector) :
    base.ctx 31 = none ∧
    (let x := { writing .pending 0 with state := .aborting }
     (holding x false).ctx 31 = some x ∧ x.state = .aborting) ∧
    (let s := holding (writing .pending 0) false
     s.ctx 31 = some (writing .pending 0) ∧ (writing .pending 0).state ≠ .aborting ∧ s.fcp.seq[31].stalled = false ∧
       true ≠ s.fcp.seq[31].expected ∧ s.fcp.seq[31].lastCrc ≠ some (Frame.data (frontByte 31) true body).crc) ∧
    (let s : State := { holding (writing .pending 0) false with
        fcp.seq := base.fcp.seq.set 31 ⟨false, false, false, some (Frame.data (frontByte 31) true body).crc⟩ }
     true ≠ s.fcp.seq[31].expected ∧ s.fcp.seq[31].lastCrc = some (Frame.data (frontByte 31) true body).crc) ∧
    (let s : State := { holding (writing .pending 0) false with fcp.seq := base.fcp.seq.set 31 ⟨false, false, true, none⟩ }
     s.fcp.seq[31].stalled = true) ∧
    (let x := one .write 8 .pending .awaitData
     (holding x false).ctx 31 = some x ∧ x.credit = 0 ∧ false = (holding x false).fcp.seq[31].expected ∧ x.segs.length ≤ 4) := by
  refine ⟨by decide, ⟨by decide +kernel, rfl⟩, ⟨by decide +kernel, by decide, rfl, by decide, nofun⟩,
    ⟨show true ≠ false by decide, rfl⟩, rfl,
    by decide +kernel⟩

theorem test_meets_WriteFrameIsStaged :
    ∀ p ∈ [Phase.pending, .queued, .issued, .active, .draining], ∀ done ∈ [0, 7],
      let s := holding (writing p done) false
      let c := writing p done
      s.ctx 31 = some c ∧ c.opcode = .write ∧ c.state ≠ .aborting ∧ s.fcp.seq[31].stalled = false ∧
      false = s.fcp.seq[31].expected ∧ c.credit ≠ 0 ∧ c.segIndex c.done = some 0 ∧ c.segs[0]? = some (seg 8 p) := by
  decide +kernel

/-- A SEC_SEND whose frame is granted. -/
def sending : Context := { Context.fresh .secSend with count := some 1, state := .awaitData, grants := [⟨1, 0⟩] }

theorem test_meets_RequestIsTaken :
    (holding sending false).ctx 31 = some sending ∧ sending.credit ≠ 0 ∧ (holding sending false).fcp.seq[31].stalled = false ∧
    false = (holding sending false).fcp.seq[31].expected ∧ (holding sending false).mgc.channel = .idle ∧
    (let s : State := { holding sending false with mgc.channel := .working }
     s.ctx 31 = some sending ∧ s.mgc.channel = .working) ∧
    (let s : State := { holding sending false with mgc.channel := .replyReady, mgc.heldReply := some Reply.pending }
     s.mgc.channel = .replyReady ∧ s.mgc.mark = none ∧ s.mgc.heldReply = some Reply.pending) := by decide +kernel

/-- An UNLOCK of no range by USER1, examined in a state whose authority 1 is as given. -/
def examining (a : Authority) (throttle : Option Nat) : State :=
  { working (asked .unlock 1 [0, 0, 0, 2, 0]) with
    aut.authorities := base.aut.authorities.set 1 a
    aut.throttle := base.aut.throttle.set 1 throttle
    mgc.works := [{ asked .unlock 1 [0, 0, 0, 2, 0] with stage := .converting }] }

theorem test_meets_AdmissionInOrder :
    let q := (asked .unlock 1 [0, 0, 0, 2, 0]).req
    let s := examining ⟨.enabled, none, 5, 5, 0⟩ none
    (s.work 0).isSome = true ∧ ReqKind.ofByte 0xFF = none ∧ ReqKind.ofByte q.code = some .unlock ∧
    s.formFault .unlock { q with bodyLen := 4 } = some .badRequest ∧ s.formFault .unlock { q with bodyLen := 477 } = some .badRequest ∧
    s.formFault .unlock q = none ∧ ReqKind.unlock.cls q = .any ∧ q.authority = 1 ∧
    (ReqKind.cls .queryStatus q = .none ∧ s.formFault .queryStatus { q with bodyLen := 1 } = none) ∧
    (examining ⟨.unset, none, 5, 5, 0⟩ none).aut.authorities[1].state = .unset ∧
    (examining ⟨.disabled, none, 5, 5, 0⟩ none).aut.authorities[1].state = .disabled ∧
    (examining ⟨.blocked, none, 5, 0, 0⟩ none).aut.authorities[1].state = .blocked ∧
    s.aut.authorities[1].state = .enabled ∧ s.lockdown = false ∧ s.bsc.record.policy = .off ∧
    s.throttled 1 = none ∧ s.engineInUse = false ∧
    (examining ⟨.enabled, none, 5, 4, 0⟩ (some 1)).throttled 1 = some 1 ∧
    ({ s with mgc.works := [{ asked .unlock 1 [] with stage := .tentative }] } : State).engineInUse = true ∧
    (let x : State := { s with rsp := (alarmed .lockAll).rsp }
     x.lockdown = true ∧ x.formFault .unlock q = none ∧ x.aut.authorities[1].state = .enabled) ∧
    (let x : State := { s with bsc.record.policy := .warn, bsc.awaiting := true }
     x.lockdown = false ∧ x.bsc.record.policy ≠ .off ∧ x.bsc.awaiting = true ∧ x.formFault .unlock q = none) ∧
    (let x : State := { s with
        bsc.record.policy := .strict
        bsc.lastBay := some ⟨.binding, .fine, 6400, none, .openBay, 0⟩ }
     x.lockdown = false ∧ x.bsc.awaiting = false ∧ x.formFault .unlock q = none) := by decide +kernel

/-- An issued READ of tag 31 whose media tag 124 has some lane. -/
def reading (l : Lane) : State :=
  { holding (one .read 8 .issued .mediaWait) true with mcp.lanes := base.mcp.lanes.set 124 l }

theorem test_meets_CreditIsGranted :
    ({ base with stg.hold := true } : State).stg.hold = true ∧
    (let c := { writing .pending 0 with grants := [], ungranted := 8 }
     let s : State := { holding c false with stg.grantOrder := [31] }
     s.stg.hold = false ∧ (s.stg.grantOrder.find? fun v => decide (0 < s.grantSize v)) = some 31 ∧ s.ctx 31 = some c) ∧
    ({ base with cph.held := List.replicate 8 ⟨124, 0, zeroSector⟩ } : State).freePlaces = 0 ∧
    (let s := reading Lane.start
     s.freePlaces ≠ 0 ∧ (s.mar.issued.find? fun n => decide (0 < s.ungrantedReads n)) = some 124) := by decide +kernel

/-- A context of one segment whose sector goes up. -/
def giving (op : Opcode) (g : Segment) : Context := { one op 8 .issued .delivering with segs := [g] }

theorem test_meets_SectorsGoUpstream :
    (let c := giving .read { seg 8 .active with treatment := some .fill }
     (holding c false).ctx 31 = some c ∧ c.state ≠ .aborting ∧ c.segIndex c.done = some 0 ∧
       c.segs[0]? = some { seg 8 .active with treatment := some .fill } ∧
       ((c.segs.take 1).any fun g => g.phase == .failed) = false) ∧
    (let s : State := { holding (giving .read (seg 8 .issued)) true with cph.held := [⟨124, 0, zeroSector⟩] }
     s.heldAt (hostTag 31 0) 0 = some ⟨124, 0, zeroSector⟩) ∧
    (let c := { giving .identify Segment.forwarded with start := none, count := none }
     let s : State := { holding c true with cph.held := [⟨124, 0, zeroSector⟩] }
     s.ctx 31 = some c ∧ c.done = 0 ∧ (c.segs.all fun g => g.phase != .failed) = true ∧
       s.heldAt (hostTag 31 0) 0 = some ⟨124, 0, zeroSector⟩) ∧
    (let c := { Context.fresh .secRecv with state := .delivering, record := some Reply.noRequest }
     let s : State := { holding c false with mgc.heldReply := some Reply.pending, mgc.mark := some 31 }
     s.ctx 31 = some c ∧ c.done = 0 ∧ s.mgc.mark = some 31 ∧ s.mgc.heldReply = some Reply.pending ∧
       (holding c false).mgc.mark ≠ some 31 ∧ c.record = some Reply.noRequest) := by decide +kernel

theorem test_meets_CompletionSendsStatus :
    (let c := one .read 8 .issued .mediaWait
     (holding c true).ctx 31 = some c ∧ (holding c true).complete 31 c = false) ∧
    (let c := { one .trim 8 .done .mediaWait with done := 8 }
     let s := holding c false
     c.state ≠ .aborting ∧ s.frontFinished 31 c = true ∧ (∀ g ∈ c.segs, g.phase = .done ∨ g.phase = .failed) ∧
       ∀ m ∈ c.mediaTags 31, s.quiescing m = false) ∧
    (let c := { Context.fresh .secSend with count := some 1, done := 1, status := .busy }
     (holding c false).ctx 31 = some c ∧ c.opcode = .secSend ∧ c.done = 1 ∧ c.status = .busy) := by decide +kernel

/-! ### Hypotheses met: frames from the media, timers, the Media Arbiter -/

/-- A WRITE of tag 31 whose segment is DRAINING. -/
def draining : State := holding (one .write 8 .draining .awaitData) false

theorem test_meets_MediaDataTestsInOrder (body : Sector) :
    base.inUse 129 = false ∧
    (reading { Lane.start with quiesce := some 0 }).quiescing 124 = true ∧
    (let s := reading { Lane.start with seq := ⟨false, false, true, none⟩ }
     s.inUse 124 = true ∧ s.quiescing 124 = false ∧ s.mcp.lanes[124].seq.stalled = true) ∧
    (let s := reading Lane.start
     s.inUse 124 = true ∧ s.quiescing 124 = false ∧ s.mcp.lanes[124].seq.stalled = false ∧
       true ≠ s.mcp.lanes[124].seq.expected ∧ s.mcp.lanes[124].seq.lastCrc ≠ some (Frame.data (mediaByte 124) true body).crc ∧
       false = s.mcp.lanes[124].seq.expected ∧ s.mcp.lanes[124].readCredit = 0) ∧
    (let s := reading { Lane.start with seq := ⟨false, false, false, some (Frame.data (mediaByte 124) true body).crc⟩ }
     s.mcp.lanes[124].seq.lastCrc = some (Frame.data (mediaByte 124) true body).crc) ∧
    draining.DrainsOnly 124 ∧ draining.mcp.lanes[124].seq.stalled = false ∧ false = draining.mcp.lanes[124].seq.expected ∧
      draining.mcp.lanes[124].readCredit = 0 := by
  refine ⟨by decide, by decide, by decide +kernel, ⟨by decide +kernel, by decide, by decide, by decide, nofun, by decide, by decide⟩,
    rfl, by decide +kernel⟩

theorem test_meets_MediaSectorIsHeld :
    (let s := reading { Lane.start with granted := 1 }
     s.mar.issued.contains 124 = true ∧ s.quiescing 124 = false ∧ s.mcp.lanes[124].seq.stalled = false ∧
       s.mcp.lanes[124].readCredit ≠ 0 ∧ (s.segAt 124).isSome = true) ∧
    (let s : State := { base with mar.issued := [129], mcp.lanes := base.mcp.lanes.set 129 { Lane.start with granted := 1 } }
     s.mar.issued.contains ownTag = true ∧ s.mcp.lanes[129].readCredit ≠ 0 ∧ s.segAt 129 = none) := by decide +kernel

theorem test_meets_MediaStatusSettlesSegment :
    (let c := one .read 8 .issued .mediaWait
     let s := reading { Lane.start with granted := 8, received := 7 }
     s.mar.issued.contains 124 = true ∧ s.quiescing 124 = false ∧ s.segAt 124 = some (31, 0, c, seg 8 .issued) ∧
       s.exchanged 124 c (seg 8 .issued) = false ∧
       (reading { Lane.start with granted := 8, received := 8 }).exchanged 124 c (seg 8 .issued) = true) := by decide +kernel

theorem test_meets_OwnIdentifyOffersCapacity :
    (∀ v ∈ [1, 2 ^ 48, 0, 2 ^ 48 + 1],
      let s : State := { base with mar.issued := [129], rrs.ownRecord := some v, rrs.capacity := none }
      s.mar.issued.contains ownTag = true ∧ s.quiescing ownTag = false ∧ s.rrs.ownRecord = some v ∧
        (1 ≤ v ∧ v ≤ 2 ^ 48 ∨ v = 0 ∨ 2 ^ 48 < v) ∧ s.wsq.wipe.state ≠ .sweeping) ∧
    (let s : State := { base with
        mar.issued := [129]
        mcp.lanes := base.mcp.lanes.set 129 { Lane.start with granted := 1, reserved := 1, timer := some 9 } }
     s.mar.issued.contains ownTag = true ∧ s.quiescing ownTag = false ∧ s.mcp.lanes[ownTag].timer = some 9) := by
  decide +kernel

/-- The tag of a WRITE whose media STAT leaves its segment DRAINING is still in use and counted (R45, R55, R72, R77): a
late ABORT sets MEDIA_FAULT (R75), a GRANT does not (R72), a second STAT does nothing, and after an abort of the context the ABORT is
stray (R60, R76). -/
theorem test_late_frames_of_a_draining_tag :
    let s : State := holding (one .write 8 .issued .awaitData) true
    let u := s.mediaStat 124 1 7
    s.inUse 124 = true ∧ (u.ctx 31).map (fun c => c.segs.map (·.phase)) = some [.draining] ∧ u.mar.issued = [] ∧
      u.inUse 124 = true ∧ (u.mediaAbort 124).mgc.flags = u.mgc.flags ||| 0x0200 ∧ (u.mediaAbort 124).quiescing 124 = false ∧
      (u.mediaGrant 124 9).mgc.flags = u.mgc.flags ∧ (u.mediaGrant 124 9).mcp.lanes[124].credit = 8 ∧
      (u.mediaStat 124 1 7).mgc.flags = u.mgc.flags ∧ (u.mediaStat 124 1 7).draining 124 = true ∧ (u.abortCtx 31 .aborted).inUse 124 = false := by
  decide +kernel

/-- A DATA frame on the tag of a DRAINING segment is an overrun: MEDIA_FAULT, an ABORT goes down, the tag quiesces and stays counted
once; the segment drains on, and once quiescing has ended the tag is out of use and of the count, so that late frames set no flag
(R45, R57, R58, R72, R74, R76, R77). Without the overrun its last front sector takes the tag out of use (R48). -/
theorem test_data_on_a_draining_tag :
    let s : State := (holding (one .write 1 .draining .awaitData) false)
    let u := s.mediaDataTests 124 false zeroSector
    u.mgc.flags = s.mgc.flags ||| 0x0200 ∧ u.quiescing 124 = true ∧ u.inUse 124 = true ∧
      u.mcp.sendOrder = s.mcp.sendOrder ++ [.abort 124] ∧
      (u.ctx 31).map (fun c => c.segs.map (·.phase)) = some [.draining] ∧
      (let v := u.endQuiesce 124
       v.inUse 124 = false ∧ (v.mediaDataTests 124 false zeroSector).mgc.flags = v.mgc.flags ∧
         (v.mediaAbort 124).mgc.flags = v.mgc.flags) ∧
      s.inUse 124 = true ∧ (s.writeSector 31 (one .write 1 .draining .awaitData) zeroSector).inUse 124 = false := by
  decide +kernel

/-- The closing write that fails ends the erase and sets no ERASE_DONE; one that completes sets it (R138, R181, R188). -/
theorem test_erase_done_is_of_a_completed_write :
    let s : State := { base with wsq.eraseStage := .closing }
    (s.report false .closing).wsq.eraseStage = .none ∧ (s.report false .closing).mgc.flags &&& 0x0010 = 0 ∧
      (s.report true .closing).mgc.flags &&& 0x0010 ≠ 0 := by
  decide +kernel

theorem test_meets_MediaGrantGivesCredit :
    (1#16 ≠ 0 ∧ 65535#16 ≠ 0) ∧ base.inUse 0 = false ∧ (reading { Lane.start with quiesce := some 0 }).quiescing 124 = true ∧
    (let s := holding (one .write 8 .issued .mediaWait) true
     s.mar.issued.contains 124 = true ∧ s.quiescing 124 = false ∧ s.creditTotal 124 = some 8) ∧
    draining.inUse 124 = true ∧ draining.quiescing 124 = false ∧ draining.creditTotal 124 = some 8 ∧
    (let s := reading Lane.start
     s.inUse 124 = true ∧ s.quiescing 124 = false ∧ s.creditTotal 124 = none) := by decide +kernel

theorem test_meets_MediaTagsAreGivenUp :
    (let x := { one .read 8 .issued .mediaWait with state := .aborting }
     let s : State := { holding x false with mcp.lanes := base.mcp.lanes.set 124 { Lane.start with quiesce := some 9 } }
     s.quiescing 124 = true ∧ s.mcp.lanes[124].quiesce = some 9 ∧ s.segAt 124 = some (31, 0, x, seg 8 .issued) ∧
       ∀ n ∈ x.mediaTags 31, n ≠ 124 → s.quiescing n = false) ∧
    (1#8).toNat ≤ 1 ∧
    (base.quiescing 124 = false ∧ base.mar.issued.contains 124 = false ∧ base.inUse 124 = false) ∧
    (base.draining 124 = false ∧ draining.quiescing 124 = false ∧ draining.mar.issued.contains 124 = false) ∧
    draining.DrainsOnly 124 ∧
    (let s := reading { Lane.start with timer := some 0 }
     s.segAt 124 = some (31, 0, one .read 8 .issued .mediaWait, seg 8 .issued) ∧ s.mar.issued.contains 124 = true ∧
       s.quiescing 124 = false ∧ s.mcp.lanes[124].timer = some 0) := by decide +kernel

theorem test_meets_StagedSectorsGoDown :
    base.mcp.lanes[124].credit = 0 ∧
    (let s : State := { holding (one .write 8 .issued .mediaWait) true with
        mcp.lanes := base.mcp.lanes.set 124 { Lane.start with credit := 1 }
        stg.staged := [⟨124, 0, zeroSector⟩] }
     s.mcp.lanes[124].credit ≠ 0 ∧ s.mar.issued.contains 124 = true ∧
       s.segAt 124 = some (31, 0, one .write 8 .issued .mediaWait, seg 8 .issued) ∧
       (s.stg.staged.find? fun y => y.tag == 124) = some ⟨124, 0, zeroSector⟩) ∧
    (let s : State := { base with
        mar.issued := [128]
        mcp.lanes := base.mcp.lanes.set 128 { Lane.start with credit := 1, sent := 7 }
        wsq.chunkOut := some ⟨0, 8, .overwrite⟩ }
     s.mcp.lanes[128].credit ≠ 0 ∧ s.mar.issued.contains 128 = true ∧ s.wsq.chunkOut = some ⟨0, 8, .overwrite⟩ ∧
       s.mcp.lanes[128].sent < 8) := by decide +kernel

/-- Where every lane is as a command starts and no segment drains, the outstanding commands are the issued ones (R77). -/
theorem outstanding_of_quiet {s : State} (hl : s.mcp.lanes = tab fun _ => Lane.start) (hi : s.mar.issued.Nodup)
    (hc : ∀ t, (s.ctx t).all (fun c => c.segs.all fun g => g.phase != .draining) = true) :
    s.outstanding = s.mar.issued.length := by
  refine s.outstanding_eq_issued hi (fun m => by simp [State.quiescing, hl, Lane.start]) fun m => ?_
  refine Bool.eq_false_iff.2 fun d => ?_
  obtain ⟨t, i, c, g, hs, -, hp, -⟩ := (s.draining_iff m).1 d
  obtain ⟨-, -, ht, hg⟩ := State.segAt_some hs
  have := hc t
  rw [ht] at this
  simpa [hp] using List.all_eq_true.1 this g (List.mem_of_getElem? hg)

theorem test_meets_ArbiterIssuesInOrder :
    32 ≤ ({ base with mar.issued := (List.finRange 130).take 32 } : State).outstanding ∧
    (State.reset.outstanding < 32 ∧ State.reset.mar.identify = true ∧ State.reset.quiescing ownTag = false) ∧
    (let s : State := { base with mar.chunk := some ⟨0, 8, .release⟩, mar.ready := [124], mar.share := 4 }
     s.outstanding < 32 ∧ s.mar.identify = false ∧ s.mar.chunk = some ⟨0, 8, .release⟩ ∧ s.flow.k ≤ s.mar.share) ∧
    (let s : State := { holding (one .read 8 .queued .mediaWait) false with mar.ready := [124], mar.share := 3 }
     s.outstanding < 32 ∧ s.mar.ready = [124] ∧ s.mar.chunk = none ∧ s.mar.share < s.flow.k ∧
       s.segAt 124 = some (31, 0, one .read 8 .queued .mediaWait, seg 8 .queued)) := by
  refine ⟨?_, ⟨?_, by decide⟩, ⟨?_, by decide⟩, ?_, by decide +kernel⟩
  · rw [outstanding_of_quiet rfl ((List.nodup_finRange _).sublist (List.take_sublist _ _)) (by decide +kernel)]; decide
  all_goals rw [outstanding_of_quiet rfl (by decide) (by decide +kernel)]; decide

/-- A sweep of range 0 at a cursor, with or without its chunk on the media. -/
def sweeping (x : Nat) (k : Option Chunk) (sent : Nat) : State :=
  { base with
    wsq.wipe := { WipeRec.shipped with state := .sweeping, scope := 1, method := .overwrite, cursor := some x }
    wsq.chunkOut := k
    mar.issued := if k.isSome then [128] else []
    mcp.lanes := base.mcp.lanes.set 128 { Lane.start with sent := sent, timer := some 9 } }

theorem test_meets_SweepMovesByChunks :
    chunkAt [⟨0, 976773168⟩] .overwrite 976773167 = some ⟨976773167, 1, .overwrite⟩ ∧
    (let s := sweeping 976773167 none 0
     s.rrs.capacity = some 976773168 ∧ s.wsq.wipe.cursor = some 976773167 ∧ s.wsq.wipe.state = .sweeping ∧
       s.rtb.sleep = .awake ∧ s.mar.chunk = none ∧ s.wsq.chunkOut = none ∧ s.inUse chunkTag = false) ∧
    (∀ sent ∈ [255, 256],
      let s := sweeping 0 (some ⟨0, 256, .overwrite⟩) sent
      s.mar.issued.contains chunkTag = true ∧ s.quiescing chunkTag = false ∧ s.rrs.capacity = some 976773168 ∧
        s.wsq.chunkOut = some ⟨0, 256, .overwrite⟩ ∧ s.wsq.chunkStale = false ∧ s.wsq.wipe.state = .sweeping ∧
        nextLba (s.sweepPieces s.wsq.wipe.scope) 256 976773168 ≠ 976773168 ∧ s.mcp.lanes[chunkTag].timer = some 9) ∧
    ({ sweeping 0 (some ⟨0, 256, .overwrite⟩) 256 with wsq.chunkStale := true } : State).wsq.chunkStale = true := by
  decide +kernel

/-- A write of a record in progress that only some writer waits for, in a wipe record's stage. -/
def reporting (x : Writer) (wipe : WipeRec) (stage : EraseStage) (done : Bool) (queued : List Writer) : State :=
  { base with
    wsq := ⟨wipe, none, false, stage, done, none⟩
    cfs.writing := some ⟨⟨.tail true, [x, .request 0]⟩, false, 40960⟩
    cfs.queue := [⟨.tail false, queued⟩] }

theorem test_meets_SweepAndEraseEnd :
    (∀ full : Bool,
      let s : State := { sweeping 0 (some ⟨976772912, 256, .overwrite⟩) 256 with wsq.wipe.full := full }
      s.mar.issued.contains chunkTag = true ∧ s.quiescing chunkTag = false ∧ s.rrs.capacity = some 976773168 ∧
        s.wsq.chunkOut = some ⟨976772912, 256, .overwrite⟩ ∧ s.wsq.chunkStale = false ∧ s.wsq.wipe.state = .sweeping ∧
        (∀ i : Fin 6, s.rsp.effective[i] = s.effectiveOf i) ∧
        nextLba (s.sweepPieces s.wsq.wipe.scope) (976772912 + 256) 976773168 = 976773168) ∧
    (∀ x ∈ [Writer.erase, .closing, .sweepEffects, .sweepDone], ∀ q ∈ [[], [x]],
      let s := reporting x WipeRec.shipped .none true q
      (∃ w, s.cfs.writing = some w ∧ x ∈ w.entry.writers ∧ ∀ y ∈ w.entry.writers, y = x ∨ ∃ id, y = .request id) ∧
        s.mgc.works = [] ∧ s.wsq.donePending = true ∧ ((s.cfs.queue ++ s.cfs.waiting).any fun e => e.writers.contains x) = (q != [])) ∧
    (let s := reporting .erase { WipeRec.shipped with state := .erasing } .writing false []
     s.wsq.eraseStage = .writing ∧ s.wsq.donePending = false) ∧
    (let s := reporting .closing { WipeRec.shipped with state := .erasing, method := .release } .closing false []
     s.wsq.eraseStage = .closing ∧ s.wsq.donePending = false ∧ (∀ i : Fin 6, s.rsp.effective[i] = s.effectiveOf i) ∧
       nextLba (s.sweepPieces s.wsq.wipe.scope) 0 976773168 = 976773168) ∧
    (let s : State := { reporting .erase { WipeRec.shipped with state := .done } .writing true [.sweepEffects] with
       wsq.unfinished := some { WipeRec.shipped with state := .sweeping, full := true } }
     s.wsq.eraseStage = .writing ∧ s.wsq.donePending = true ∧ s.wsq.unfinished.isSome = true ∧ s.wsq.wipe.state = .done ∧
       ((s.cfs.queue ++ s.cfs.waiting).any fun e => e.writers.contains .erase) = false ∧
       ((s.cfs.queue ++ s.cfs.waiting).any fun e => e.writers.contains .sweepEffects) = true) := by
  refine ⟨by decide +kernel, ?_, by decide +kernel, by decide +kernel, by decide +kernel⟩
  intro x hx q hq
  refine ⟨⟨_, rfl, .head _, ?_⟩, rfl, rfl, ?_⟩
  · intro y hy
    simp only [List.mem_cons, List.not_mem_nil, or_false] at hy
    exact hy.imp id fun h => ⟨0, h⟩
  · revert x q; decide +kernel

/-! ### Hypotheses met: verifies, replies, the store -/

/-- USER1's UNLOCK at some stage, without the credential of USER1. -/
def verifying (st : Stage) : Work := { asked .unlock 1 [] with stage := st, cred := none }

theorem test_meets_VerifyOutcomes :
    (let s := working (verifying .tentative)
     (s.mgc.works.find? fun v => v.stage == .tentative && !s.owes (.request v.id)) = some (verifying .tentative)) ∧
    (let w := { verifying (.verifying 7) with cred := some Config.factoryCredential, req := (asked .rekey 0 []).req }
     let s := working w
     (s.mgc.works.find? fun v => v.verifyTill.isSome) = some w ∧ w.verifyTill = some 7 ∧ w.overtaken = false ∧
       s.work w.id = some w ∧ 0 < s.aut.authorities[w.req.authority].limit ∧
       verifies w.cred s.aut.authorities[w.req.authority] = true) ∧
    (let w := verifying (.verifying 7)
     ((working w).mgc.works.find? fun v => v.verifyTill.isSome) = some w ∧ verifies w.cred base.aut.authorities[1] = false ∧
       0 < base.aut.authorities[1].remaining ∧
       (examining ⟨.enabled, none, 5, 0, 0⟩ none).aut.authorities[1].remaining = 0) ∧
    ∀ auth ∈ [0, 1],
      let w := { verifying (.verifying 7) with req := (asked .unlock auth []).req, overtaken := true }
      ((working w).mgc.works.find? fun v => v.verifyTill.isSome) = some w ∧ w.verifyTill = some 7 ∧ w.overtaken = true ∧
        (w.req.authority ≠ 0 ↔ auth = 1) ∧ verifies w.cred (working w).aut.authorities[w.req.authority] = false := by
  refine ⟨rfl, ⟨rfl, rfl, rfl, rfl, by decide, ?_⟩, ⟨rfl, rfl, by decide, by decide⟩, ?_⟩
  · show decide (Config.verifierOf Config.factoryCredential = Config.verifierOf Config.factoryCredential) = true
    exact decide_eq_true rfl
  · intro auth h
    simp only [List.mem_cons, List.not_mem_nil, or_false] at h
    rcases h with rfl | rfl
    · exact ⟨rfl, rfl, rfl, by decide, rfl⟩
    · exact ⟨rfl, rfl, rfl, by decide, rfl⟩

/-- A request whose reply is formed. -/
def finishing (detached failed : Bool) : Work :=
  { asked .unlock 1 [] with stage := .finishing ⟨.done, .none, 0, 0x10, [], 0⟩, detached := detached, storeFailed := failed }

theorem test_meets_RepliesAreReleased :
    ∀ d f : Bool, (working (finishing d f)).mgc.works.find? (working (finishing d f)).releasable = some (finishing d f) ∧
      (finishing d f).stage = .finishing ⟨.done, .none, 0, 0x10, [], 0⟩ ∧ (finishing d f).detached = d ∧
      (finishing d f).storeFailed = f := by
  intro d f; cases d <;> cases f <;> exact ⟨rfl, rfl, rfl, rfl⟩

/-- A write of the tail record in progress. -/
def storing (retried : Bool) (ws : List Writer) : State :=
  { base with cfs.writing := some ⟨⟨.tail true, ws⟩, retried, 40960⟩ }

theorem test_meets_StoreWriteEnds :
    (storing false [.request 0]).cfs.writing = some ⟨⟨.tail true, [.request 0]⟩, false, 40960⟩ ∧
    (∀ x ∈ [Writer.request 0], ∃ id, x = .request id) ∧ (storing false []).wsq.eraseStage = .none ∧
    (storing false []).wsq.donePending = false ∧ Record.tail false ≠ .tail true ∧
    (storing true [.request 0]).cfs.writing = some ⟨⟨.tail true, [.request 0]⟩, true, 40960⟩ :=
  ⟨rfl, by simp, rfl, rfl, by decide, rfl⟩

/-! ### Hypotheses met: sleep, link reset, the converter -/

/-- A sleeping bridge that retains the key of range 16. -/
def asleep (timer : RetTimer) (kept : Bool) (p : BindPolicy) : State :=
  { lastRange ⟨true, false, false, true, false⟩ false false .sealed with
    rtb := ⟨.asleep, false, if kept then [⟨16, ⟨.retention 5, 7⟩⟩] else [], if kept then some 5 else none, timer, 0, .none, 30⟩
    bsc.record.policy := p }

theorem test_meets_SleepEntry :
    (State.reset.rtb.sleep = .awake ∧ State.reset.rrs.capacity = none) ∧
    ({ base with mar.issued := [0] } : State).sleepRefused = true ∧
    (let s := lastRange ⟨true, false, false, true, false⟩ false false (.live 7)
     s.rtb.sleep = .awake ∧ s.rrs.capacity.isSome = true ∧ s.sleepRefused = false ∧ s.rtb.retained = [] ∧ s.rtb.key = none ∧
       s.isDefined 16 = true ∧ s.rrs.ranges[16].cfg.policy.hold = true) ∧
    (let s : State := { base with rtb.sleep := .entering, cfs.writing := none }
     s.rtb.sleep = .entering ∧ s.drained = true ∧ s.rtb.wakeHeld = false) ∧
    ({ base with rtb.sleep := .asleep } : State).rtb.sleep = .asleep ∧
    ({ base with rtb.sleep := .waking } : State).rtb.sleep = .waking ∧
    base.rtb.sleep ≠ .entering ∧ (storing false []).drained = false := by decide +kernel

theorem test_meets_WakeEndings :
    base.rtb.sleep = .awake ∧ ({ base with rtb.sleep := .entering } : State).rtb.sleep = .entering ∧
    ({ base with rtb.sleep := .waking } : State).rtb.sleep = .waking ∧
    ((asleep .expired false .off).rtb.sleep = .asleep ∧ (asleep .expired false .off).rtb.timer = .expired) ∧
    ((asleep .stopped false .off).rtb.timer ≠ .expired ∧ (asleep .stopped false .off).rtb.retained = []) ∧
    ((asleep (.running 9) true .off).rtb.retained ≠ [] ∧ (asleep (.running 9) true .off).bsc.record.policy = .off ∧
      ((asleep (.running 9) true .off).rtb.retained.map Retained.range).Nodup ∧
      ((asleep (.running 9) true .off).rtb.key.bind fun x => (⟨.retention 5, 7⟩ : Wrapped).opened (.retention x)) = some 7) ∧
    ((asleep (.running 9) true .warn).bsc.record.policy ≠ .off ∧ (asleep (.running 9) true .warn).bsc.running = none) ∧
    (let s : State := { asleep (.running 9) true .off with rtb.sleep := .entering, rtb.wakeHeld := true, cfs.writing := none }
     s.rtb.sleep = .entering ∧ s.drained = true ∧ s.rtb.wakeHeld = true) := by decide +kernel

theorem test_meets_RetentionEnds :
    ((asleep (.running 9) true .off).rtb.timer = .running 9 ∧ (asleep (.running 9) true .off).rtb.sleep = .asleep ∧
      (asleep (.running 9) true .off).isDefined 16 = true) ∧
    (let s : State := { asleep .stopped true .warn with
        rtb.sleep := .waking
        bsc.phase := .deintegrating
        bsc.running := some ⟨.binding, .coarse, [.wake]⟩
        bsc.record.window := some (445, 495) }
     s.bsc.running = some ⟨.binding, .coarse, [.wake]⟩ ∧ s.bsc.phase = .deintegrating ∧ s.rtb.sleep = .waking ∧
       s.bsc.record.policy ≠ .off ∧ (∀ i : Fin 6, s.rsp.effective[i] = s.effectiveOf i) ∧
       (s.rtb.retained.map Retained.range).Nodup ∧ s.isDefined 16 = true ∧ s.rrs.ranges[16].cfg.policy.readEn = true ∧
       bindingClass s.bsc.record .coarse (min 188 800) = .hit ∧ bindingClass s.bsc.record .coarse (min 801 800) ≠ .hit) := by
  decide +kernel

theorem test_meets_LinkResetFreesEverything :
    (working (asked .lock 0 [])).mgc.channel = .working ∧ (holding (writing .pending 0) true).ctx 31 = some (writing .pending 0) ∧
    (holding (writing .pending 0) true).tagsToAbort 31 (writing .pending 0) = [124] := by decide +kernel

/-- A conversion in a phase. -/
def converting (p : BayPhase) (m : BayMode) : State :=
  { base with bsc.phase := p, bsc.running := some ⟨m, .coarse, [.startUp]⟩ }

theorem test_meets_ConversionPhases :
    (converting .zeroing .binding).bsc.running = some ⟨.binding, .coarse, [.startUp]⟩ ∧
    (converting .zeroing .binding).bsc.phase = .zeroing ∧ (converting .integrating .binding).bsc.phase = .integrating ∧
    (converting .deintegrating .binding).bsc.phase ≠ .zeroing := by decide +kernel

theorem test_meets_ConversionResult :
    (∀ m ∈ [BayMode.binding, .selfTest],
      (converting .deintegrating m).bsc.running = some ⟨m, .coarse, [.startUp]⟩ ∧
      (converting .deintegrating m).bsc.phase = .deintegrating ∧ (⟨m, .coarse, [.startUp]⟩ : Conversion).enrolment = none) ∧
    (let s : State := { converting .deintegrating .binding with
        bsc.record.policy := .warn
        bsc.waiting := some ⟨.selfTest, .fine, [.measure 0]⟩ }
     s.bsc.record.policy ≠ .off ∧ s.bsc.waiting = some ⟨.selfTest, .fine, [.measure 0]⟩) ∧ base.bsc.record.policy = .off := by
  decide +kernel

/-- An ENROLL_BAY waits for its conversion at FINE: a ratio at each end of 0..2000 is accepted, F counts or fewer than F/32 are
not. -/
theorem test_meets_EnrolmentEnds :
    let w := { asked .enrollBay 0 [25] with stage := .converting }
    let s : State := { working w with
      bsc.phase := .deintegrating
      bsc.running := some ⟨.binding, .fine, [.measure 1, .enroll 0 25, .startUp]⟩ }
    s.bsc.running = some ⟨.binding, .fine, [.measure 1, .enroll 0 25, .startUp]⟩ ∧ s.bsc.phase = .deintegrating ∧
    (∀ q ∈ [Requester.measure 1, .enroll 0 25, .startUp], q = .enroll 0 25 ∨ q = .startUp ∨ ∃ j, j ≠ 0 ∧ q = .measure j) ∧
    s.work 0 = some w ∧ s.bsc.record.faultMark = false ∧ Setting.fine.f = 6400 ∧ 6400 / 32 = 200 ∧
    (2000 * 200 + 6400 / 2) / 6400 = 63 ∧ (2000 * 6399 + 6400 / 2) / 6400 = 2000 :=
  ⟨rfl, rfl, by simp, rfl, rfl, rfl, rfl, rfl, rfl⟩

/-! ### Hypotheses met: management requests (each is also ready, by test_asked_is_ready) -/

theorem test_meets_BayRequests :
    (base.bsc.running = none ∧ base.bsc.waiting = none ∧ (converting .zeroing .binding).bsc.running.isSome = true) ∧
    (let s : State := { converting .zeroing .binding with bsc.waiting := some ⟨.selfTest, .fine, []⟩ }
     s.bsc.running.isSome = true ∧ s.bsc.waiting = some ⟨.selfTest, .fine, []⟩ ∧
       BayMode.selfTest ≠ (if (asked .measureBay 0 [0, 0]).req.num 0 1 = 0 then BayMode.binding else .selfTest) ∧
       BayMode.selfTest = if (asked .measureBay 0 [1, 0]).req.num 0 1 = 0 then BayMode.binding else .selfTest) ∧
    (∃ j tol, Requester.enroll j tol ∈ [Requester.enroll 0 25]) ∧ ¬(∃ j tol, Requester.enroll j tol ∈ [Requester.startUp]) ∧
    (BindPolicy.ofCode ((asked .setBindPolicy 0 [2, 3]).req.num 0 1) ≠ .off ∧ base.bsc.record.window = none) ∧
    BindPolicy.ofCode ((asked .setBindPolicy 0 [0, 0]).req.num 0 1) = .off ∧
    ({ base with bsc.record.window := some (445, 495) } : State).bsc.record.window ≠ none := by
  refine ⟨by decide, by decide +kernel, ⟨0, 25, .head _⟩, by simp, by decide +kernel⟩

theorem test_meets_StatusAndEvents : ∀ k ∈ [ReqKind.queryStatus, .readEvents],
    (working (asked k 0 [3])).readyFor k = some (asked k 0 [3]) := fun k _ => test_asked_is_ready k 0 [3]

theorem test_meets_SettingsTakeEffect : ∀ k ∈ [ReqKind.bootImageWrite, .setFlow, .setDeadstart, .setRetention],
    (working (asked k 0 [48, 16, 4])).readyFor k = some (asked k 0 [48, 16, 4]) := fun k _ => test_asked_is_ready k 0 [48, 16, 4]

theorem test_meets_SetNoteMaskRule :
    (∀ mask ∈ [[0x20, 0, 0, 0, 0, 0], [0, 0, 0x20, 0, 0, 0], [0, 0, 0, 0, 0x20, 0]],
      base.badFields .setNoteMask (asked .setNoteMask 0 (mask.map (BitVec.ofNat 8))).req = true) ∧
    base.badFields .setNoteMask (asked .setNoteMask 0 [0x1F, 0xFF, 0x1F, 0xFF, 0x1F, 0xFF]).req = false ∧
    (asked .setNoteMask 0 [0x20, 0, 0, 0, 0, 0]).req.bodyLen = 6 := by decide +kernel

theorem test_meets_BootDoneRule :
    let q := (asked .bootDone 0 []).req
    (base.named q).state = .enabled ∧ base.throttled q.authority = none ∧ base.engineInUse = false := by decide +kernel

/-- An UNLOCK of range 16 by ADMIN whose envelope opens, and a LOCK of it. -/
theorem test_meets_UnlockAndLock :
    let w := { asked .unlock 0 [1, 0, 0, 2, 0] with cred := some 5 }
    let s : State := { lastRange ⟨true, true, false, false, false⟩ true true .sealed with
      aut.envelopes := base.aut.envelopes.set 63 (some ⟨.authority 0, 16, ⟨.credential 5, 7⟩⟩)
      mgc.works := [w] }
    s.readyFor .unlock = some w ∧ (w.req.set 0).getLsbD 16 = true ∧
      s.unlockCase w.req.authority w.credential 16 = .unlocked ∧ s.unlockCase w.req.authority 6 16 = .envelopeFailed ∧
      s.isDefined 16 = true ∧ s.unlockCase w.req.authority w.credential 1 = .undefined ∧ s.lockdown = false ∧
      (let x := asked .unlock 1 [1, 0, 0, 2, 0]
       x.req.authority ≠ 0 ∧ (alarmed .lockAll).lockdown = true) := by decide +kernel

/-- A bridge with a request ready whose target is authority 1, for which a verify is in flight. -/
def heldBack (k : ReqKind) : State :=
  { working (asked k 0 [1]) with mgc.works := [asked k 0 [1], { asked .unlock 1 [] with id := 1, stage := .verifying 9 }] }

theorem test_verify_holds_back :
    ∀ k ∈ [ReqKind.setAuthority, .setCredential, .resetAuthority], ∀ v ∈ (heldBack k).mgc.works, v.stage = .ready →
      v.req.code = k.code → ∃ y ∈ (heldBack k).mgc.works, y.inVerify = true ∧ y.req.authority = v.req.target := by
  decide +kernel

theorem test_meets_AuthoritiesAreManaged :
    (let w := asked .setAuthority 0 [7, 0, 15]
     w.req.target ≠ 0 ∧ w.req.askedState = .unset) ∧
    (let w := asked .setAuthority 0 ([7, 1, 1, 0, 0, 0, 1] ++ List.replicate 32 9)
     w.req.target = 7 ∧ w.req.askedState = .enabled ∧ w.req.newCredential.isSome = true ∧
       base.fits (base.keyable w.req.grants w.credential).length 0 = true) ∧
    (let w := asked .setAuthority 0 ([1, 1, 1, 0, 0, 1, 1] ++ List.replicate 32 9)
     let s : State := { base with aut.envelopes := tab fun _ => some ⟨.device, 17, ⟨.root, 1⟩⟩ }
     w.req.newCredential.isSome = true ∧ s.fits (s.keyable w.req.grants w.credential).length
       (s.placesOf fun e => e.owner == .authority w.req.target).length = false) ∧
    (let w := asked .setAuthority 0 [1, 2, 15]
     w.req.askedState = .disabled ∧ w.req.newCredential = none ∧ base.aut.authorities[1].verifier.isNone = true ∧
       base.aut.authorities[1].state ≠ .blocked ∧
       (examining ⟨.enabled, some 1, 5, 5, 0⟩ none).aut.authorities[1].verifier.isSome = true ∧
       (examining ⟨.enabled, some 1, 5, 5, 0⟩ none).aut.authorities[1].state ≠ .blocked ∧
       (examining ⟨.blocked, some 1, 5, 0, 0⟩ none).aut.authorities[1].state = .blocked) ∧
    (let s : State := { examining ⟨.blocked, none, 5, 0, 0⟩ none with
       aut.envelopes := base.aut.envelopes.set 63 (some ⟨.authority 1, 0, ⟨.root, 1⟩⟩) }
     let a := s.aut.authorities[(asked .resetAuthority 0 [1]).req.target]
     a.state = .blocked ∧ a.verifier.isNone = true ∧ 0 < a.limit ∧ (s.aut.envelopes[63].any fun e => e.owner == .authority 1) = true) := by
  decide +kernel

/-- An envelope made afresh overwrites the stored one of its owner and range (R84); another takes no place that the store fills. -/
theorem test_envelope_overwrites_its_stored_place :
    let s : State := { base with aut.envelopes := tab fun _ => none }
    s.placeFor .device 17 = some 3 ∧ s.placeFor (.authority 1) 0 = some 4 := by decide +kernel

theorem test_meets_CredentialsAreReplaced :
    (let w := asked .setCredential 0 [1]
     base.aut.authorities[w.req.target].state = .unset ∧ w.req.target ≠ w.req.authority) ∧
    (let w := asked .setCredential 1 [1]
     base.aut.authorities[w.req.target].state = .unset ∧ w.req.target = w.req.authority) ∧
    (let w := asked .setCredential 0 [0]
     base.aut.authorities[w.req.target].state ≠ .unset ∧ w.req.target = w.req.authority) ∧
    (let w := asked .setCredential 0 [1]
     let a : Authority := ⟨.enabled, some 1, 5, 5, 1⟩
     let s := examining a none
     let t : State := { s with aut.envelopes := tab fun _ => some ⟨.device, 17, ⟨.root, 1⟩⟩ }
     s.aut.authorities[w.req.target].state ≠ .unset ∧ w.req.target ≠ w.req.authority ∧ w.req.authority = 0 ∧
       s.fits (s.keyable a.grants w.credential).length (s.placesOf fun e => e.owner == .authority w.req.target).length = true ∧
       t.fits (t.keyable a.grants w.credential).length (t.placesOf fun e => e.owner == .authority w.req.target).length = false) := by
  decide +kernel

theorem test_meets_RangesAreDefined :
    (let w := asked .defineRanges 0 []
     (State.reset.defineChecks w.req w.credential).isSome = true ∧ base.defineChecks w.req w.credential = none ∧
       base.rrs.capacity.isSome = true) ∧
    (let w := asked .defineRanges 0 ([1] ++ List.replicate 11 0 ++ [8, 3])
     base.defineChecks w.req w.credential = none ∧ base.entryClass w.req 1 = .new) := by decide +kernel

theorem test_meets_PolicyIsModified :
    (let w := asked .modifyPolicy 0 [0, 0, 2, 4, 0, 0]
     (w.req.set 0).getLsbD 1 = true ∧ base.isDefined 1 = false) ∧
    (let w := asked .modifyPolicy 0 [0, 0, 1, 1, 0, 0]
     ∀ r : Fin 17, (w.req.set 0).getLsbD r.val = true → base.isDefined r = true) ∧
    (let w := asked .modifyPolicy 0 [0, 0, 1, 1, 0, 0]
     base.fits (base.policyNeeds 0 (w.req.newPolicy base.rrs.ranges[0].cfg.policy) w.credential).1
       (base.policyNeeds 0 (w.req.newPolicy base.rrs.ranges[0].cfg.policy) w.credential).2 = true) ∧
    (let s : State := { lastRange ⟨true, false, false, false, false⟩ true false (.live 7) with
        aut.envelopes := tab fun _ => some ⟨.authority 1, 0, ⟨.root, 1⟩⟩ }
     let p := (asked .modifyPolicy 0 [1, 0, 0, 0, 1, 0]).req.newPolicy s.rrs.ranges[16].cfg.policy
     s.fits (s.policyNeeds 16 p 0).1 (s.policyNeeds 16 p 0).2 = false) := by decide +kernel

theorem test_meets_BootWindowIsSet :
    (base.windowChecks (asked .setBootWindow 0 [0, 0, 4, 1]).req).isSome = true ∧
    base.windowChecks (asked .setBootWindow 0 [2, 0, 0, 1]).req = none ∧
    base.windowChecks (asked .setBootWindow 0 [0, 0, 0, 0]).req = none := by decide +kernel

theorem test_meets_ResponseIsConfigured :
    (asked .setResponse 0 [0, 1, 1, 1, 2, 1, 0, 1, 3, 4, 3, 1, 1]).req.response = base.rsp.cfg ∧
    (asked .setResponse 0 [0, 1, 1, 1, 2, 1, 0, 1, 3, 4, 3, 0, 1]).req.response ≠ base.rsp.cfg ∧
    (let cfg := (asked .setResponse 0 [0, 1, 1, 2, 3, 3, 0, 1, 3, 4, 15, 1, 1]).req.response
     let s (source : BitVec 6) (mark : DoneMark) (x : WipeState) : State := { base with
       rsp.src := ⟨source, tab fun _ => mark⟩
       wsq.wipe.state := x }
     let starts (source : BitVec 6) (mark : DoneMark) (i : Fin 6) (a : Action) : Prop :=
       ({ s source mark .idle with rsp.cfg := cfg } : State).effectiveOf i = some a ∧ (s source mark .idle).rsp.effective[i] ≠ some a
     cfg.method ≠ .eraseOnly ∧ starts 1 .none 0 .note ∧ starts 2 .none 1 .lockAll ∧
       starts 8 .none 3 .cryptoErase ∧ starts 24 .none 4 .fullWipe ∧ starts 24 .cryptoErase 4 .fullWipe ∧ starts 24 .fullWipe 4 .fullWipe ∧
       ¬Hands .cryptoErase .cryptoErase ∧ Hands .none .cryptoErase ∧ Hands .cryptoErase .fullWipe ∧ ¬Hands .fullWipe .fullWipe ∧
       (s 8 .none .done).wsq.wipe.state = .done ∧ (s 8 .none .sweeping).wsq.wipe.state = .sweeping) := by
  refine ⟨by decide +kernel, by decide +kernel, ?_⟩
  unfold Hands
  decide +kernel

theorem test_meets_WipeErasesAtOnce :
    (let w := asked .wipe 0 [0, 0, 2, 0]
     (w.req.set 0).getLsbD (rangeSlot 1).val = true ∧ base.isDefined 1 = false) ∧
    (let w := asked .wipe 0 [2, 0, 1, 1]
     (∀ r : Fin 17, (w.req.set 0).getLsbD (rangeSlot r).val = true → base.isDefined r = true) ∧
       Method.ofCode (w.req.num 3 1) ≠ .eraseOnly ∧ (sweeping 0 none 0).sweepRunning = true ∧ base.sweepRunning = false ∧
       base.wsq.wipe.state = .idle) ∧
    (let w := asked .wipe 0 [2, 0, 1, 1]
     let s : State := { base with wsq.wipe.state := .erasing }
     s.wsq.wipe.method = .eraseOnly ∧ Method.ofCode (w.req.num 3 1) ≠ .eraseOnly ∧ s.sweepRunning = false ∧
       (∀ r : Fin 17, s.isDefined r = true → (w.req.set 0).getLsbD (rangeSlot r).val = true) ∧
       (w.req.set 0).getLsbD 17 = true) := by decide +kernel

theorem test_meets_RekeyGivesFreshKey :
    (base.rekeyChecks (asked .rekey 0 [17]).req).isSome = true ∧
    (let s : State := { base with
        rrs.tailErased := true
        cph.slots := base.cph.slots.set 17 ⟨.destroyed, 0⟩
        aut.envelopes := tab fun _ => none
        cfs.nv.tail := ⟨true, true⟩ }
     s.rekeyChecks (asked .rekey 0 [17]).req = none ∧ s.placesOf (ofRange 17) = []) := by decide +kernel

theorem test_meets_PowerOnLeaves :
    (asleep (.running 9) true .off).rtb.retained ≠ [] ∧
    (base.cfs.atPowerOn true [.tail true]).allPass = false ∧
    (let x : WipeRec := { WipeRec.shipped with state := .erasing, eraseSet := 0x20001 }
     x.eraseSet.getLsbD 0 = true ∧ x.eraseSet.getLsbD 17 = true ∧
       (({ base with cfs.nv.wipe := ⟨x, true⟩ } : State).cfs.atPowerOn true []).wipe = ⟨x, true⟩) := by decide +kernel

/-! ### Hypotheses met: the invariants, each in a state with a WAKE waiting -/

/-- A property of every context in use, checked tag by tag. -/
theorem forall_contexts {s : State} {p : Context → Prop} [DecidablePred p]
    (h : ∀ t, (s.ctx t).all (fun c => decide (p c)) = true) : ∀ t c, s.ctx t = some c → p c := by
  intro t c hc
  have := h t
  rw [hc] at this
  simpa using this

theorem test_meets_RangeTableInvariant :
    (let s : State := { lastRange ⟨true, true, false, false, false⟩ true false (.live 7) with pending := [.wake .idle] }
     LockInv s ∧ LayoutInv s ∧ ExtentInv s ∧ s.rrs.capacity = some 976773168 ∧ ∃ t, step s = .next t) ∧
    UserExtentsOk (fun r => (Nv.shipped.ranges[r]).val.extent) fun r => (Nv.shipped.ranges[r]).ok := by
  refine ⟨⟨by unfold LockInv; decide +kernel, ?_, ?_, rfl, _, rfl⟩, ?_⟩
  · intro c h
    cases h
    decide +kernel
  · have only : ∀ r : Fin 17, r ≠ 0 → ((lastRange ⟨true, true, false, false, false⟩ true false (.live 7)).rrs.ranges[r]).cfg.extent =
        if r = 16 then some ⟨976773160, 8⟩ else none := by decide +kernel
    refine ⟨fun r e h he _ => ?_, fun r r' e e' h h' hne he he' => ?_⟩
    · replace he := (only r h).symm.trans he
      split at he <;> cases he
      unfold Extent.Aligned; decide
    · replace he := (only r h).symm.trans he
      replace he' := (only r' h').symm.trans he'
      split at he <;> split at he' <;> cases he <;> cases he'
      exact absurd (by simp_all) hne
  · have none' : ∀ r : Fin 17, r ≠ 0 → ((Nv.shipped.ranges[r]).val.extent) = none := by decide +kernel
    exact ⟨fun r _ h he _ => (nomatch (none' r h).symm.trans he),
      fun r _ _ _ h _ _ he _ => nomatch (none' r h).symm.trans he⟩

theorem test_meets_StoreAndTimerInvariants :
    let s : State := { reading { Lane.start with granted := 8, timer := some 65536000 } with pending := [.wake .idle] }
    StoreInv s ∧ TimerInv s ∧ EffectiveInv s ∧ ∃ t, step s = .next t :=
  ⟨by unfold StoreInv; decide +kernel, by unfold TimerInv; decide +kernel, by unfold EffectiveInv; decide +kernel, _, rfl⟩

theorem test_meets_UseCountInvariant :
    (let s : State := { reading Lane.start with pending := [.wake .idle] }
     UsesInv s ∧ ∃ t, step s = .next t) ∧
    let s : State := { lastRange ⟨true, true, false, false, false⟩ true true .sealed with pending := [.wake .idle] }
    ChannelInv s ∧ RetainedInv s ∧ SealInv s ∧ ∃ t, step s = .next t := by
  refine ⟨⟨⟨by decide +kernel, by decide +kernel, forall_contexts (p := fun c => c.segs.length ≤ 4 ∧ ∀ g ∈ c.segs,
    (g.uses = true → g.treatment = some .media ∧ g.slot.isSome = true ∧
      (g.phase = .pending ∨ g.phase = .queued ∨ g.phase = .issued ∨ g.phase = .discarding)) ∧
    (c.state = .aborting → g.uses = false)) (by decide +kernel)⟩, _, rfl⟩, by unfold ChannelInv; decide +kernel,
    by unfold RetainedInv; decide +kernel, ⟨by decide +kernel, by decide +kernel,
      fun w (h : w ∈ []) => (List.not_mem_nil h).elim⟩, _, rfl⟩

/-- 32 tags in use, each counted once, before a step (R77). -/
theorem test_meets_OutstandingStays :
    let s : State := { base with mar.issued := (List.finRange 130).take 32, pending := [.mediaArbiterIssue] }
    s.outstanding = 32 ∧ ∃ t, step s = .next t :=
  ⟨outstanding_of_quiet rfl ((List.nodup_finRange _).sublist (List.take_sublist _ _)) (by decide +kernel), _, rfl⟩

/-- A WRITE with 5 sectors received, 2 granted and 1 still to be granted. -/
theorem test_meets_StagingNeverOverflows :
    let c := { writing .pending 5 with grants := [⟨2, 0⟩], ungranted := 1 }
    let s : State := { holding c false with stg.grantOrder := [31], pending := [.frontGrant] }
    CreditInv s ∧ ∃ t, step s = .next t := by
  refine ⟨⟨by decide +kernel, by decide +kernel, ?_, forall_contexts (p := fun c =>
    (∀ g ∈ c.grants, 0 < g.missing) ∧ (c.opcode = .secSend → c.count = some 1) ∧
    if (c.opcode = .write ∨ c.opcode = .secSend) ∧ c.state ≠ .aborting then some (c.done + c.credit + c.ungranted) = c.count
    else c.grants = [] ∧ c.ungranted = 0) (by decide +kernel)⟩, _, rfl⟩
  intro t h
  rw [List.mem_singleton.mp h]
  exact ⟨_, rfl, by decide⟩

theorem test_meets_ChannelInvariant :
    let s : State := { working (asked .lock 255 [0, 0, 1, 2]) with pending := [.wake .idle] }
    ChannelInv s ∧ ∃ t, step s = .next t := ⟨by unfold ChannelInv; decide +kernel, _, rfl⟩

theorem test_meets_ErasedKeysStayGone :
    let s : State := { asleep (.running 9) true .off with pending := [.frontGrant] }
    SleepInv s ∧ RetainedInv s ∧ ErasedInv s ∧ ∃ t, step s = .next t := by
  refine ⟨fun _ => ⟨by decide +kernel, by decide +kernel⟩, by unfold RetainedInv; decide +kernel,
    by unfold ErasedInv; decide +kernel, _, rfl⟩

end Sys2Proof.Tests
end

section
/-! The CRC of a frame (R164): big-endian fields read back, the checks that a received frame has passed, and CrcRule. -/

namespace Sys2Proof.Machine

/-- The last byte of a big-endian string is its lowest digit in base 256. -/
@[simp] theorem beNat_concat (l : List Byte) (b : Byte) : beNat (l ++ [b]) = beNat l * 256 + b.toNat := by
  simp [beNat]

/-- The number a byte string spells, sent in as many bytes, is that string (R162). -/
theorem be_length_beNat (l : List Byte) : be l.length (beNat l) = l := by
  induction l using List.reverseRecOn with
  | nil => rfl
  | append_singleton l b ih =>
    have high : (beNat l * 256 + b.toNat) / 256 = beNat l := by omega
    have low : BitVec.ofNat 8 (beNat l * 256 + b.toNat) = b := BitVec.eq_of_toNat_eq (by simp; omega)
    simp [be, high, low, ih]

/-- The CRC runs byte by byte (R164). -/
theorem crc16_concat (l : List Byte) (b : Byte) : crc16 (l ++ [b]) = crcByte (crc16 l) b := by
  simp [crc16]

/-- What the checks of R163 leave of a byte string that passed them: its head is complete, the rest is a body of the size of
its class and two bytes of CRC, each field passed its own check, and the body was read into the frame. -/
theorem exists_checks_of_parseFrame {p : Port} {bytes : List Byte} {f : Frame} (h : parseFrame p bytes = some f) :
    ∃ (c tag flags : Byte) (rest : List Byte) (n : Nat),
      bytes = c :: ~~~c :: tag :: flags :: rest ∧ bodySize c = some n ∧ takesInbound p c = true ∧ rest.length = n + 2 ∧
      (flags = 0 ∨ (c = 0x52 ∧ flags = 1)) ∧ tagAllowed p c tag = true ∧
      beNat (rest.drop n) = (crc16 (tag :: flags :: rest.take n)).toNat ∧
      frameOfBody c tag (flags = 1) (rest.take n) = some f := by
  match bytes, h with
  | c :: k :: tag :: flags :: rest, h =>
    simp only [parseFrame] at h
    split at h
    next => cases h
    next n size =>
      split at h
      next checks =>
        obtain ⟨rfl, inbound, len, flag, tagOk, crc⟩ := checks
        exact ⟨c, tag, flags, rest, n, rfl, size, inbound, len, flag, tagOk, crc, h⟩
      next => cases h

/-- A frame passes only with the CRC of what stands between its class check and its last two bytes (R163, R164). -/
theorem last_two_eq_crc_of_parseFrame {p : Port} {bytes : List Byte} {f : Frame} (h : parseFrame p bytes = some f) :
    bytes.drop (bytes.length - 2) = be 2 (crc16 ((bytes.drop 2).take (bytes.length - 4))).toNat := by
  obtain ⟨c, tag, flags, rest, n, rfl, -, -, len, -, -, crc, -⟩ := exists_checks_of_parseFrame h
  have two : (rest.drop n).length = 2 := by simp [len]
  have sent : be 2 (crc16 (tag :: flags :: rest.take n)).toNat = rest.drop n := by
    rw [← crc, ← two, be_length_beNat]
  simp [len, sent]

/-- Settles O3: each part of R164 by its own lemma; the whole frame of 10.6 by computing its CRC. -/
theorem crcRule : Obligations.CrcRule := by
  refine ⟨rfl, fun l b => ?step, fun f => ?layout, fun _ _ _ => last_two_eq_crc_of_parseFrame, by decide +kernel⟩
  case step => exact crc16_concat l b
  case layout => rfl

end Sys2Proof.Machine
end

section
/-! SUPPORT. A request served by its owning block: the work it names, the store writes it queues, and when its reply can be
released (R179, R187, R189). -/

namespace Sys2Proof.Machine

/-! ### The request served -/

/-- A request that has reached its owning block is served, and the command then ends (log 3). -/
theorem State.handle_of_ready {s : State} {k : ReqKind} {w : Work} (h : s.readyFor k = some w) (f : State → Work → State) :
    s.handle k f = (f s w).settle := by
  simp [State.handle, h]

theorem State.id_of_work {s : State} {id : Nat} {v : Work} (h : s.work id = some v) : v.id = id := by
  simpa using List.find?_some h

theorem State.exists_work_of_mem {s : State} {w : Work} (h : w ∈ s.mgc.works) : ∃ v, s.work w.id = some v :=
  Option.isSome_iff_exists.mp (List.find?_isSome.mpr ⟨w, h, by simp⟩)

/-- A change that keeps serial numbers changes the request that its number names. -/
theorem State.work_modWork (s : State) (id : Nat) {f : Work → Work} (keeps : ∀ w, (f w).id = w.id) :
    (s.modWork id f).work id = (s.work id).map f := by
  have ids : ∀ w : Work, (if w.id = id then f w else w).id = w.id := fun w => by split <;> simp [keeps]
  cases found : s.work id with
  | none => simpa [State.work, State.modWork, ids] using found
  | some v =>
    have vid := State.id_of_work found
    simp only [State.work] at found
    simp [State.work, State.modWork, List.find?_map, ids, found, vid]

/-- A reply formed for a request that the channel knows is its answer (R178, R179). -/
theorem State.finish_answered {s : State} {id : Nat} (r : Reply) (known : ∃ v, s.work id = some v) :
    Answered (s.finish id r) id r := by
  obtain ⟨v, hv⟩ := known
  have work := State.work_modWork s id (f := fun w => { w with stage := .finishing r, cred := none }) fun _ => rfl
  rw [hv] at work
  exact ⟨_, work, rfl, rfl⟩

/-! ### The writes it queues -/

/-- A list that names a record holds it, once folded, with its new value and the writers gathered (R187). -/
theorem exists_foldEntry_of_names {es : List Entry} {r : Record} (ws : List Writer) (h : names es r.id = true) :
    ∃ e ∈ es.map (foldEntry r ws), e.record = r ∧ ws ⊆ e.writers := by
  obtain ⟨e, he, hid⟩ : ∃ e ∈ es, e.record.id = r.id := by simpa [names] using h
  exact ⟨_, List.mem_map_of_mem he, by simp [foldEntry, hid]⟩

/-- A write taken by the queue stands in the store with the value and the writers given (R187). -/
theorem State.exists_entry_of_queueWrite (s : State) (r : Record) (ws : List Writer) :
    ∃ e ∈ (s.queueWrite r ws).storeEntries, e.record = r ∧ ws ⊆ e.writers := by
  unfold State.queueWrite
  split
  next queued =>
    obtain ⟨e, he, made⟩ := exists_foldEntry_of_names ws queued
    exact ⟨e, by simp only [State.storeEntries, List.mem_append]; exact .inl (.inr he), made⟩
  next =>
    split
    next waits =>
      obtain ⟨e, he, made⟩ := exists_foldEntry_of_names ws waits
      exact ⟨e, by simp only [State.storeEntries, List.mem_append]; exact .inr he, made⟩
    next => split <;> exact ⟨⟨r, ws⟩, by simp [State.storeEntries], rfl, List.Subset.refl _⟩

theorem State.queueRecord_stores (s : State) (i : RecordId) (id : Nat) :
    Stores (s.queueRecord i [.request id]) id (s.current i) := by
  obtain ⟨e, he, hr, hw⟩ := s.exists_entry_of_queueWrite (s.current i) [.request id]
  exact ⟨e, he, hr, hw (by simp)⟩

/-- A queued write leaves the stored records as they are (R187). -/
@[simp] theorem State.queueWrite_nv (s : State) (r : Record) (ws : List Writer) : (s.queueWrite r ws).cfs.nv = s.cfs.nv := by
  unfold State.queueWrite
  repeat' split
  all_goals rfl

theorem State.queueRecord_mgc (s : State) (i : RecordId) (ws : List Writer) : (s.queueRecord i ws).mgc = s.mgc :=
  State.queueRecord_only s i ws .mgc (by decide)

/-- The single write of a request is queued at once, and none is left for later (R189). -/
theorem State.persist_record (s : State) (id : Nat) (i : RecordId) :
    s.persist id [[.cur i]] = (s.queueRecord i [.request id]).modWork id fun w => { w with later := [] } := rfl

/-! ### The release of its reply -/

theorem State.owes_of_stores {u : State} {id : Nat} {r : Record} (h : Stores u id r) : u.owes (.request id) = true := by
  obtain ⟨e, he, -, hw⟩ := h
  exact List.any_eq_true.mpr ⟨e, he, List.contains_iff_mem.mpr hw⟩

/-- A reply is released only when every write of its request has been reported (R189). -/
theorem State.owes_of_releasable {u : State} {v : Work} (h : u.releasable v = true) : u.owes (.request v.id) = false := by
  unfold State.releasable at h
  split at h
  next =>
    simp only [Bool.and_eq_true, Bool.not_eq_true'] at h
    obtain ⟨⟨-, reported⟩, -⟩ := h
    exact reported
  next => cases h

/-! ### The store at a loss of power -/

theorem Nv.put_noteMask_of_ne (nv : Nv) (ok : Bool) {r : Record} (h : r.id ≠ .noteMask) :
    (nv.put ok r).noteMask = nv.noteMask := by
  cases r with
  | noteMask v => exact absurd rfl h
  | _ => rfl

/-- A loss of power while no write of the NOTE mask is in progress leaves the stored mask (R188). -/
theorem Cfs.atPowerOn_noteMask {c : Cfs} (landed : Bool) (h : ∀ x, c.writing = some x → x.entry.record.id ≠ .noteMask) :
    (c.atPowerOn landed []).noteMask = c.nv.noteMask := by
  unfold Cfs.atPowerOn
  cases writing : c.writing with
  | none => rfl
  | some x =>
    cases landed with
    | false => rfl
    | true => exact Nv.put_noteMask_of_ne _ _ (h x writing)

end Sys2Proof.Machine
end

section
/-! SET_NOTE_MASK (R183): the form of the request, the new mask, its write, and SetNoteMaskRule. -/

namespace Sys2Proof.Machine

/-! ### The request -/

/-- A mask is refused where it has a bit above the 13 flags (R183, R178 step 5). -/
theorem State.badFields_setNoteMask (s : State) (q : Request) : s.badFields .setNoteMask q = true ↔
    2 ^ 13 ≤ q.num 0 2 ∨ 2 ^ 13 ≤ q.num 2 2 ∨ 2 ^ 13 ≤ q.num 4 2 := by
  simp [State.badFields, Nat.lt_iff_add_one_le, or_assoc]

/-- A request of class ADMIN, named by ADMIN and of a size that its layout allows, is stopped by its fields alone (R178). -/
theorem State.formFault_of_badFields {s : State} {k : ReqKind} {q : Request} (cls : k.cls q = .admin) (auth : q.auth = 0)
    (low : k.size ≤ q.bodyLen) (high : q.bodyLen ≤ 476) (bad : s.badFields k q = true) :
    s.formFault k q = some .badRequest := by
  have sized : ¬(476 < q.bodyLen ∨ q.bodyLen < k.size) := by omega
  simp [State.formFault, sized, cls, AuthClass.holds, auth, bad]

/-! ### The new mask -/

theorem getLsbD_masked {n : Nat} (b set clear toggle : BitVec n) (i : Nat) :
    (masked b set clear toggle).getLsbD i =
      (((b.getLsbD i || set.getLsbD i) && !clear.getLsbD i) ^^ toggle.getLsbD i) := by
  by_cases inside : i < n
  · simp [masked, inside]
  · simp [masked, BitVec.getLsbD_of_ge _ _ (Nat.le_of_not_lt inside)]

/-- The mask that a SET_NOTE_MASK makes of the present one (R183). -/
def Request.noteMaskFrom (q : Request) (b : BitVec 13) : BitVec 13 :=
  masked b (BitVec.ofNat 13 (q.num 0 2)) (BitVec.ofNat 13 (q.num 2 2)) (BitVec.ofNat 13 (q.num 4 2))

/-- The NOTE mask put in force for a request, with its write where it changed (R183). -/
def State.putNoteMask (s : State) (id : Nat) (m : BitVec 13) : State :=
  if m = s.mgc.noteMask then { s with mgc.noteMask := m }
  else { s with mgc.noteMask := m }.persist id [[.cur .noteMask]]

theorem exec_setNoteMask {s : State} {w : Work} (h : s.readyFor .setNoteMask = some w) :
    exec .setNoteMask s =
      .next ((s.putNoteMask w.id (w.req.noteMaskFrom s.mgc.noteMask)).finish w.id (.done w.req [])).settle :=
  congrArg Host.Outcome.next (State.handle_of_ready h _)

/-! ### What it changes -/

theorem State.putNoteMask_of_eq {s : State} {m : BitVec 13} (id : Nat) (h : m = s.mgc.noteMask) :
    s.putNoteMask id m = { s with mgc.noteMask := m } := if_pos h

theorem State.putNoteMask_of_ne {s : State} {m : BitVec 13} (id : Nat) (h : m ≠ s.mgc.noteMask) :
    s.putNoteMask id m = ({ s with mgc.noteMask := m }.queueRecord .noteMask [.request id]).modWork id
      fun w => { w with later := [] } := by
  rw [State.putNoteMask, if_neg h, State.persist_record]

theorem State.putNoteMask_only (s : State) (id : Nat) (m : BitVec 13) :
    OnlyChanges [.mgc, .cfs] s (s.putNoteMask id m) := by
  have masks : OnlyChanges [.mgc, .cfs] s { s with mgc.noteMask := m } := (OnlyChanges.refl _ _).set_mgc _
  unfold State.putNoteMask
  split
  · exact masks
  · exact masks.to (State.persist_only _ _ _)

/-- Of the Management Channel only the mask changes, and the request that has its write (R183). -/
theorem State.putNoteMask_mgc (s : State) (id : Nat) (m : BitVec 13) :
    (s.putNoteMask id m).mgc = { s.mgc with noteMask := m, works := (s.putNoteMask id m).mgc.works } := by
  by_cases same : m = s.mgc.noteMask
  · rw [State.putNoteMask_of_eq id same]
  · simp [State.putNoteMask_of_ne id same, State.queueRecord_mgc]

/-- The stored records are as before: a change of the mask is only queued (R183, R187). -/
theorem State.putNoteMask_nv (s : State) (id : Nat) (m : BitVec 13) : (s.putNoteMask id m).cfs.nv = s.cfs.nv := by
  by_cases same : m = s.mgc.noteMask
  · rw [State.putNoteMask_of_eq id same]
  · simp [State.putNoteMask_of_ne id same, State.queueRecord]

/-- A changed mask is written for the request (R183). -/
theorem State.putNoteMask_stores {s : State} {m : BitVec 13} (id : Nat) (h : m ≠ s.mgc.noteMask) :
    Stores (s.putNoteMask id m) id (.noteMask m) := by
  rw [State.putNoteMask_of_ne id h]
  exact State.queueRecord_stores { s with mgc.noteMask := m } .noteMask id

/-- The request is still known to the channel once the mask is in force (R183). -/
theorem State.exists_work_of_putNoteMask {s : State} {w : Work} (h : w ∈ s.mgc.works) (m : BitVec 13) :
    ∃ v, (s.putNoteMask w.id m).work w.id = some v := by
  by_cases same : m = s.mgc.noteMask
  · rw [State.putNoteMask_of_eq w.id same]
    exact State.exists_work_of_mem h
  · obtain ⟨v, hv⟩ := State.exists_work_of_mem h
    rw [State.putNoteMask_of_ne w.id same]
    refine ⟨{ v with later := [] }, (State.work_modWork _ _ (f := fun w => { w with later := [] }) fun _ => rfl).trans ?_⟩
    simp only [State.work, State.queueRecord_mgc] at hv ⊢
    rw [hv, Option.map_some]

/-! ### The rule -/

/-- Settles O41: the form of the request by the checks of R178; then the state in which the new mask is in force and the reply
formed, each clause by what putting the mask in force changes, and the wait of DONE by what is owed while a write stands in the
store. -/
theorem setNoteMaskRule : Obligations.SetNoteMaskRule := by
  refine ⟨fun _ => ⟨rfl, rfl⟩, State.badFields_setNoteMask, fun s q auth low high bad =>
    State.formFault_of_badFields rfl auth low high bad, fun s w ready => ?_⟩
  let m := w.req.noteMaskFrom s.mgc.noteMask
  let p := s.putNoteMask w.id m
  let u := p.finish w.id (.done w.req [])
  have mgc := State.putNoteMask_mgc s w.id m
  have nv : u.cfs.nv = s.cfs.nv := State.putNoteMask_nv s w.id m
  obtain ⟨-, member, -⟩ := State.readyFor_some ready
  have umask : u.mgc.noteMask = m := congrArg Mgc.noteMask mgc
  have uflags : u.mgc.flags = s.mgc.flags := (congrArg Mgc.flags mgc :)
  refine ⟨u, exec_setNoteMask ready, fun i => ?bits, uflags, ?note,
    State.finish_answered _ (State.exists_work_of_putNoteMask member m), nv, fun changed => ?changed, fun same => ?same,
    fun v known free => ?waits, fun landed idle => ?power, ?only⟩
  case bits =>
    rw [umask]
    exact getLsbD_masked _ _ _ _ i
  case note => simp [State.note, uflags]
  case changed =>
    rw [umask] at changed ⊢
    have stores : Stores u w.id (.noteMask m) := State.putNoteMask_stores w.id changed
    refine ⟨stores, fun v _ hv => Bool.eq_false_iff.mpr fun free => ?_⟩
    have reported := hv ▸ State.owes_of_releasable free
    exact absurd (State.owes_of_stores stores) (by simp [reported])
  case same =>
    rw [umask] at same
    exact (congrArg State.cfs (State.putNoteMask_of_eq w.id same) :)
  case waits => exact State.id_of_work known ▸ State.owes_of_releasable free
  case power => exact (Cfs.atPowerOn_noteMask landed idle).trans (congrArg Nv.noteMask nv)
  case only => exact (State.putNoteMask_only s w.id m).to (State.finish_only _ _ _)

end Sys2Proof.Machine
end
